-- ==== Sys2Proof/Word.lean ====
section
/-! DEFINITION. The two word types of the core (spec/00_scope.md R5, R7): every register but PC and every
byte on the bus is a u8, PC and every bus address is a u16. `+`, `-`, `&&&`, `|||`, `^^^`, `<<<` and `>>>`
of these types are rule R7's wrapping and bitwise operations. -/

namespace Sys2Proof

/-- u8 (R7). -/
abbrev Byte := BitVec 8

/-- u16 (R7): an address of the one 64 KiB space (R50), and the width of PC. -/
abbrev Addr := BitVec 16

end Sys2Proof
end

