-- ==== Sys2Proof/Syntax.lean ====
section
/-! DEFINITION. The instructions: one constructor per row of spec/opcode_table.json, so one per opcode byte
(spec/30_encoding.md R87 to R89). A constructor's name is the row's mnemonic and mode; where a mnemonic has
several opcodes of one mode (JAM, NOP*, ANC) the opcode byte stands in the name. Its arguments are the operand
bytes in the order of R81: `n` the one operand byte, `lo` and `hi` the two bytes of an address, `pad` the byte
after BRK's opcode (R83). The formats with operand bytes come first, then the one-byte format F1, each in the
order of the opcode byte. -/

namespace Sys2Proof

/-- An instruction with its operand bytes. -/
inductive Instr where
  | brk (pad : Byte)
  | oraIndX (n : Byte)
  | sloIndX (n : Byte)
  | nop04Zp (n : Byte)
  | oraZp (n : Byte)
  | aslZp (n : Byte)
  | sloZp (n : Byte)
  | oraImm (n : Byte)
  | anc0BImm (n : Byte)
  | nop0CAbs (lo hi : Byte)
  | oraAbs (lo hi : Byte)
  | aslAbs (lo hi : Byte)
  | sloAbs (lo hi : Byte)
  | bpl (n : Byte)
  | oraIndY (n : Byte)
  | sloIndY (n : Byte)
  | nop14ZpX (n : Byte)
  | oraZpX (n : Byte)
  | aslZpX (n : Byte)
  | sloZpX (n : Byte)
  | oraAbsY (lo hi : Byte)
  | sloAbsY (lo hi : Byte)
  | nop1CAbsX (lo hi : Byte)
  | oraAbsX (lo hi : Byte)
  | aslAbsX (lo hi : Byte)
  | sloAbsX (lo hi : Byte)
  | jsrAbs (lo hi : Byte)
  | andIndX (n : Byte)
  | rlaIndX (n : Byte)
  | bitZp (n : Byte)
  | andZp (n : Byte)
  | rolZp (n : Byte)
  | rlaZp (n : Byte)
  | andImm (n : Byte)
  | anc2BImm (n : Byte)
  | bitAbs (lo hi : Byte)
  | andAbs (lo hi : Byte)
  | rolAbs (lo hi : Byte)
  | rlaAbs (lo hi : Byte)
  | bmi (n : Byte)
  | andIndY (n : Byte)
  | rlaIndY (n : Byte)
  | nop34ZpX (n : Byte)
  | andZpX (n : Byte)
  | rolZpX (n : Byte)
  | rlaZpX (n : Byte)
  | andAbsY (lo hi : Byte)
  | rlaAbsY (lo hi : Byte)
  | nop3CAbsX (lo hi : Byte)
  | andAbsX (lo hi : Byte)
  | rolAbsX (lo hi : Byte)
  | rlaAbsX (lo hi : Byte)
  | eorIndX (n : Byte)
  | sreIndX (n : Byte)
  | nop44Zp (n : Byte)
  | eorZp (n : Byte)
  | lsrZp (n : Byte)
  | sreZp (n : Byte)
  | eorImm (n : Byte)
  | alrImm (n : Byte)
  | jmpAbs (lo hi : Byte)
  | eorAbs (lo hi : Byte)
  | lsrAbs (lo hi : Byte)
  | sreAbs (lo hi : Byte)
  | bvc (n : Byte)
  | eorIndY (n : Byte)
  | sreIndY (n : Byte)
  | nop54ZpX (n : Byte)
  | eorZpX (n : Byte)
  | lsrZpX (n : Byte)
  | sreZpX (n : Byte)
  | eorAbsY (lo hi : Byte)
  | sreAbsY (lo hi : Byte)
  | nop5CAbsX (lo hi : Byte)
  | eorAbsX (lo hi : Byte)
  | lsrAbsX (lo hi : Byte)
  | sreAbsX (lo hi : Byte)
  | adcIndX (n : Byte)
  | rraIndX (n : Byte)
  | nop64Zp (n : Byte)
  | adcZp (n : Byte)
  | rorZp (n : Byte)
  | rraZp (n : Byte)
  | adcImm (n : Byte)
  | arrImm (n : Byte)
  | jmpInd (lo hi : Byte)
  | adcAbs (lo hi : Byte)
  | rorAbs (lo hi : Byte)
  | rraAbs (lo hi : Byte)
  | bvs (n : Byte)
  | adcIndY (n : Byte)
  | rraIndY (n : Byte)
  | nop74ZpX (n : Byte)
  | adcZpX (n : Byte)
  | rorZpX (n : Byte)
  | rraZpX (n : Byte)
  | adcAbsY (lo hi : Byte)
  | rraAbsY (lo hi : Byte)
  | nop7CAbsX (lo hi : Byte)
  | adcAbsX (lo hi : Byte)
  | rorAbsX (lo hi : Byte)
  | rraAbsX (lo hi : Byte)
  | nop80Imm (n : Byte)
  | staIndX (n : Byte)
  | nop82Imm (n : Byte)
  | saxIndX (n : Byte)
  | styZp (n : Byte)
  | staZp (n : Byte)
  | stxZp (n : Byte)
  | saxZp (n : Byte)
  | nop89Imm (n : Byte)
  | aneImm (n : Byte)
  | styAbs (lo hi : Byte)
  | staAbs (lo hi : Byte)
  | stxAbs (lo hi : Byte)
  | saxAbs (lo hi : Byte)
  | bcc (n : Byte)
  | staIndY (n : Byte)
  | shaIndY (n : Byte)
  | styZpX (n : Byte)
  | staZpX (n : Byte)
  | stxZpY (n : Byte)
  | saxZpY (n : Byte)
  | staAbsY (lo hi : Byte)
  | tasAbsY (lo hi : Byte)
  | shyAbsX (lo hi : Byte)
  | staAbsX (lo hi : Byte)
  | shxAbsY (lo hi : Byte)
  | shaAbsY (lo hi : Byte)
  | ldyImm (n : Byte)
  | ldaIndX (n : Byte)
  | ldxImm (n : Byte)
  | laxIndX (n : Byte)
  | ldyZp (n : Byte)
  | ldaZp (n : Byte)
  | ldxZp (n : Byte)
  | laxZp (n : Byte)
  | ldaImm (n : Byte)
  | lxaImm (n : Byte)
  | ldyAbs (lo hi : Byte)
  | ldaAbs (lo hi : Byte)
  | ldxAbs (lo hi : Byte)
  | laxAbs (lo hi : Byte)
  | bcs (n : Byte)
  | ldaIndY (n : Byte)
  | laxIndY (n : Byte)
  | ldyZpX (n : Byte)
  | ldaZpX (n : Byte)
  | ldxZpY (n : Byte)
  | laxZpY (n : Byte)
  | ldaAbsY (lo hi : Byte)
  | lasAbsY (lo hi : Byte)
  | ldyAbsX (lo hi : Byte)
  | ldaAbsX (lo hi : Byte)
  | ldxAbsY (lo hi : Byte)
  | laxAbsY (lo hi : Byte)
  | cpyImm (n : Byte)
  | cmpIndX (n : Byte)
  | nopC2Imm (n : Byte)
  | dcpIndX (n : Byte)
  | cpyZp (n : Byte)
  | cmpZp (n : Byte)
  | decZp (n : Byte)
  | dcpZp (n : Byte)
  | cmpImm (n : Byte)
  | sbxImm (n : Byte)
  | cpyAbs (lo hi : Byte)
  | cmpAbs (lo hi : Byte)
  | decAbs (lo hi : Byte)
  | dcpAbs (lo hi : Byte)
  | bne (n : Byte)
  | cmpIndY (n : Byte)
  | dcpIndY (n : Byte)
  | nopD4ZpX (n : Byte)
  | cmpZpX (n : Byte)
  | decZpX (n : Byte)
  | dcpZpX (n : Byte)
  | cmpAbsY (lo hi : Byte)
  | dcpAbsY (lo hi : Byte)
  | nopDCAbsX (lo hi : Byte)
  | cmpAbsX (lo hi : Byte)
  | decAbsX (lo hi : Byte)
  | dcpAbsX (lo hi : Byte)
  | cpxImm (n : Byte)
  | sbcIndX (n : Byte)
  | nopE2Imm (n : Byte)
  | iscIndX (n : Byte)
  | cpxZp (n : Byte)
  | sbcZp (n : Byte)
  | incZp (n : Byte)
  | iscZp (n : Byte)
  | sbcImm (n : Byte)
  | usbcImm (n : Byte)
  | cpxAbs (lo hi : Byte)
  | sbcAbs (lo hi : Byte)
  | incAbs (lo hi : Byte)
  | iscAbs (lo hi : Byte)
  | beq (n : Byte)
  | sbcIndY (n : Byte)
  | iscIndY (n : Byte)
  | nopF4ZpX (n : Byte)
  | sbcZpX (n : Byte)
  | incZpX (n : Byte)
  | iscZpX (n : Byte)
  | sbcAbsY (lo hi : Byte)
  | iscAbsY (lo hi : Byte)
  | nopFCAbsX (lo hi : Byte)
  | sbcAbsX (lo hi : Byte)
  | incAbsX (lo hi : Byte)
  | iscAbsX (lo hi : Byte)
  | jam02
  | php
  | aslAcc
  | jam12
  | clc
  | nop1A
  | jam22
  | plp
  | rolAcc
  | jam32
  | sec
  | nop3A
  | rti
  | jam42
  | pha
  | lsrAcc
  | jam52
  | cli
  | nop5A
  | rts
  | jam62
  | pla
  | rorAcc
  | jam72
  | sei
  | nop7A
  | dey
  | txa
  | jam92
  | tya
  | txs
  | tay
  | tax
  | jamB2
  | clv
  | tsx
  | iny
  | dex
  | jamD2
  | cld
  | nopDA
  | inx
  | nop
  | jamF2
  | sed
  | nopFA
  deriving DecidableEq, Repr

end Sys2Proof
end

