-- ==== Sys2Proof/Decode.lean ====
section
/-! DEFINITION. The opcode table (R88, R89), the decoder and the encoder. Decoding looks the opcode byte up in a
16 by 16 map, row by high digit and column by low digit as R88 prints it; it is total over all 256 opcode
bytes (R87), and rejects by name only a list of bytes that ends inside an instruction. -/

namespace Sys2Proof

/-- The modes of R89's column "mode". -/
inductive Mode where
  | imp | acc | imm | zp | zpX | zpY | abs | absX | absY | ind | indX | indY | rel
  deriving DecidableEq, Repr

/-- The access classes of R100. -/
inductive Access where
  | none | read | write | rmw
  deriving DecidableEq, Repr

/-- The 78 mnemonics of the table; `nopStar` is `NOP*`. -/
inductive Mnemonic where
  | brk | ora | jam | slo | nopStar | asl | php | anc | bpl | clc | jsr | and
  | rla | bit | rol | plp | bmi | sec | rti | eor | sre | lsr | pha | alr
  | jmp | bvc | cli | rts | adc | rra | ror | pla | arr | bvs | sei | sta
  | sax | sty | stx | dey | txa | ane | bcc | sha | tya | txs | tas | shy
  | shx | ldy | lda | ldx | lax | tay | tax | lxa | bcs | clv | tsx | las
  | cpy | cmp | dcp | dec | iny | dex | sbx | bne | cld | cpx | sbc | isc
  | inc | inx | nop | usbc | beq | sed
  deriving DecidableEq, Repr

/-- One row of R89: mnemonic, mode, bytes, base cycles, "+1 if page crossed", access class, official. -/
structure Row where
  mnemonic : Mnemonic
  mode : Mode
  bytes : Nat
  cycles : Nat
  penalty : Bool
  access : Access
  official : Bool
  deriving DecidableEq, Repr

/-- Row 0x of R89. -/
def tableRow0 : List Row := [
  ⟨.brk, .imp, 2, 7, false, .none, true⟩,
  ⟨.ora, .indX, 2, 6, false, .read, true⟩,
  ⟨.jam, .imp, 1, 1, false, .none, false⟩,
  ⟨.slo, .indX, 2, 8, false, .rmw, false⟩,
  ⟨.nopStar, .zp, 2, 3, false, .read, false⟩,
  ⟨.ora, .zp, 2, 3, false, .read, true⟩,
  ⟨.asl, .zp, 2, 5, false, .rmw, true⟩,
  ⟨.slo, .zp, 2, 5, false, .rmw, false⟩,
  ⟨.php, .imp, 1, 3, false, .none, true⟩,
  ⟨.ora, .imm, 2, 2, false, .read, true⟩,
  ⟨.asl, .acc, 1, 2, false, .rmw, true⟩,
  ⟨.anc, .imm, 2, 2, false, .read, false⟩,
  ⟨.nopStar, .abs, 3, 4, false, .read, false⟩,
  ⟨.ora, .abs, 3, 4, false, .read, true⟩,
  ⟨.asl, .abs, 3, 6, false, .rmw, true⟩,
  ⟨.slo, .abs, 3, 6, false, .rmw, false⟩]

/-- Row 1x of R89. -/
def tableRow1 : List Row := [
  ⟨.bpl, .rel, 2, 2, false, .none, true⟩,
  ⟨.ora, .indY, 2, 5, true, .read, true⟩,
  ⟨.jam, .imp, 1, 1, false, .none, false⟩,
  ⟨.slo, .indY, 2, 8, false, .rmw, false⟩,
  ⟨.nopStar, .zpX, 2, 4, false, .read, false⟩,
  ⟨.ora, .zpX, 2, 4, false, .read, true⟩,
  ⟨.asl, .zpX, 2, 6, false, .rmw, true⟩,
  ⟨.slo, .zpX, 2, 6, false, .rmw, false⟩,
  ⟨.clc, .imp, 1, 2, false, .none, true⟩,
  ⟨.ora, .absY, 3, 4, true, .read, true⟩,
  ⟨.nopStar, .imp, 1, 2, false, .none, false⟩,
  ⟨.slo, .absY, 3, 7, false, .rmw, false⟩,
  ⟨.nopStar, .absX, 3, 4, true, .read, false⟩,
  ⟨.ora, .absX, 3, 4, true, .read, true⟩,
  ⟨.asl, .absX, 3, 7, false, .rmw, true⟩,
  ⟨.slo, .absX, 3, 7, false, .rmw, false⟩]

/-- Row 2x of R89. -/
def tableRow2 : List Row := [
  ⟨.jsr, .abs, 3, 6, false, .none, true⟩,
  ⟨.and, .indX, 2, 6, false, .read, true⟩,
  ⟨.jam, .imp, 1, 1, false, .none, false⟩,
  ⟨.rla, .indX, 2, 8, false, .rmw, false⟩,
  ⟨.bit, .zp, 2, 3, false, .read, true⟩,
  ⟨.and, .zp, 2, 3, false, .read, true⟩,
  ⟨.rol, .zp, 2, 5, false, .rmw, true⟩,
  ⟨.rla, .zp, 2, 5, false, .rmw, false⟩,
  ⟨.plp, .imp, 1, 4, false, .none, true⟩,
  ⟨.and, .imm, 2, 2, false, .read, true⟩,
  ⟨.rol, .acc, 1, 2, false, .rmw, true⟩,
  ⟨.anc, .imm, 2, 2, false, .read, false⟩,
  ⟨.bit, .abs, 3, 4, false, .read, true⟩,
  ⟨.and, .abs, 3, 4, false, .read, true⟩,
  ⟨.rol, .abs, 3, 6, false, .rmw, true⟩,
  ⟨.rla, .abs, 3, 6, false, .rmw, false⟩]

/-- Row 3x of R89. -/
def tableRow3 : List Row := [
  ⟨.bmi, .rel, 2, 2, false, .none, true⟩,
  ⟨.and, .indY, 2, 5, true, .read, true⟩,
  ⟨.jam, .imp, 1, 1, false, .none, false⟩,
  ⟨.rla, .indY, 2, 8, false, .rmw, false⟩,
  ⟨.nopStar, .zpX, 2, 4, false, .read, false⟩,
  ⟨.and, .zpX, 2, 4, false, .read, true⟩,
  ⟨.rol, .zpX, 2, 6, false, .rmw, true⟩,
  ⟨.rla, .zpX, 2, 6, false, .rmw, false⟩,
  ⟨.sec, .imp, 1, 2, false, .none, true⟩,
  ⟨.and, .absY, 3, 4, true, .read, true⟩,
  ⟨.nopStar, .imp, 1, 2, false, .none, false⟩,
  ⟨.rla, .absY, 3, 7, false, .rmw, false⟩,
  ⟨.nopStar, .absX, 3, 4, true, .read, false⟩,
  ⟨.and, .absX, 3, 4, true, .read, true⟩,
  ⟨.rol, .absX, 3, 7, false, .rmw, true⟩,
  ⟨.rla, .absX, 3, 7, false, .rmw, false⟩]

/-- Row 4x of R89. -/
def tableRow4 : List Row := [
  ⟨.rti, .imp, 1, 6, false, .none, true⟩,
  ⟨.eor, .indX, 2, 6, false, .read, true⟩,
  ⟨.jam, .imp, 1, 1, false, .none, false⟩,
  ⟨.sre, .indX, 2, 8, false, .rmw, false⟩,
  ⟨.nopStar, .zp, 2, 3, false, .read, false⟩,
  ⟨.eor, .zp, 2, 3, false, .read, true⟩,
  ⟨.lsr, .zp, 2, 5, false, .rmw, true⟩,
  ⟨.sre, .zp, 2, 5, false, .rmw, false⟩,
  ⟨.pha, .imp, 1, 3, false, .none, true⟩,
  ⟨.eor, .imm, 2, 2, false, .read, true⟩,
  ⟨.lsr, .acc, 1, 2, false, .rmw, true⟩,
  ⟨.alr, .imm, 2, 2, false, .read, false⟩,
  ⟨.jmp, .abs, 3, 3, false, .none, true⟩,
  ⟨.eor, .abs, 3, 4, false, .read, true⟩,
  ⟨.lsr, .abs, 3, 6, false, .rmw, true⟩,
  ⟨.sre, .abs, 3, 6, false, .rmw, false⟩]

/-- Row 5x of R89. -/
def tableRow5 : List Row := [
  ⟨.bvc, .rel, 2, 2, false, .none, true⟩,
  ⟨.eor, .indY, 2, 5, true, .read, true⟩,
  ⟨.jam, .imp, 1, 1, false, .none, false⟩,
  ⟨.sre, .indY, 2, 8, false, .rmw, false⟩,
  ⟨.nopStar, .zpX, 2, 4, false, .read, false⟩,
  ⟨.eor, .zpX, 2, 4, false, .read, true⟩,
  ⟨.lsr, .zpX, 2, 6, false, .rmw, true⟩,
  ⟨.sre, .zpX, 2, 6, false, .rmw, false⟩,
  ⟨.cli, .imp, 1, 2, false, .none, true⟩,
  ⟨.eor, .absY, 3, 4, true, .read, true⟩,
  ⟨.nopStar, .imp, 1, 2, false, .none, false⟩,
  ⟨.sre, .absY, 3, 7, false, .rmw, false⟩,
  ⟨.nopStar, .absX, 3, 4, true, .read, false⟩,
  ⟨.eor, .absX, 3, 4, true, .read, true⟩,
  ⟨.lsr, .absX, 3, 7, false, .rmw, true⟩,
  ⟨.sre, .absX, 3, 7, false, .rmw, false⟩]

/-- Row 6x of R89. -/
def tableRow6 : List Row := [
  ⟨.rts, .imp, 1, 6, false, .none, true⟩,
  ⟨.adc, .indX, 2, 6, false, .read, true⟩,
  ⟨.jam, .imp, 1, 1, false, .none, false⟩,
  ⟨.rra, .indX, 2, 8, false, .rmw, false⟩,
  ⟨.nopStar, .zp, 2, 3, false, .read, false⟩,
  ⟨.adc, .zp, 2, 3, false, .read, true⟩,
  ⟨.ror, .zp, 2, 5, false, .rmw, true⟩,
  ⟨.rra, .zp, 2, 5, false, .rmw, false⟩,
  ⟨.pla, .imp, 1, 4, false, .none, true⟩,
  ⟨.adc, .imm, 2, 2, false, .read, true⟩,
  ⟨.ror, .acc, 1, 2, false, .rmw, true⟩,
  ⟨.arr, .imm, 2, 2, false, .read, false⟩,
  ⟨.jmp, .ind, 3, 5, false, .none, true⟩,
  ⟨.adc, .abs, 3, 4, false, .read, true⟩,
  ⟨.ror, .abs, 3, 6, false, .rmw, true⟩,
  ⟨.rra, .abs, 3, 6, false, .rmw, false⟩]

/-- Row 7x of R89. -/
def tableRow7 : List Row := [
  ⟨.bvs, .rel, 2, 2, false, .none, true⟩,
  ⟨.adc, .indY, 2, 5, true, .read, true⟩,
  ⟨.jam, .imp, 1, 1, false, .none, false⟩,
  ⟨.rra, .indY, 2, 8, false, .rmw, false⟩,
  ⟨.nopStar, .zpX, 2, 4, false, .read, false⟩,
  ⟨.adc, .zpX, 2, 4, false, .read, true⟩,
  ⟨.ror, .zpX, 2, 6, false, .rmw, true⟩,
  ⟨.rra, .zpX, 2, 6, false, .rmw, false⟩,
  ⟨.sei, .imp, 1, 2, false, .none, true⟩,
  ⟨.adc, .absY, 3, 4, true, .read, true⟩,
  ⟨.nopStar, .imp, 1, 2, false, .none, false⟩,
  ⟨.rra, .absY, 3, 7, false, .rmw, false⟩,
  ⟨.nopStar, .absX, 3, 4, true, .read, false⟩,
  ⟨.adc, .absX, 3, 4, true, .read, true⟩,
  ⟨.ror, .absX, 3, 7, false, .rmw, true⟩,
  ⟨.rra, .absX, 3, 7, false, .rmw, false⟩]

/-- Row 8x of R89. -/
def tableRow8 : List Row := [
  ⟨.nopStar, .imm, 2, 2, false, .read, false⟩,
  ⟨.sta, .indX, 2, 6, false, .write, true⟩,
  ⟨.nopStar, .imm, 2, 2, false, .read, false⟩,
  ⟨.sax, .indX, 2, 6, false, .write, false⟩,
  ⟨.sty, .zp, 2, 3, false, .write, true⟩,
  ⟨.sta, .zp, 2, 3, false, .write, true⟩,
  ⟨.stx, .zp, 2, 3, false, .write, true⟩,
  ⟨.sax, .zp, 2, 3, false, .write, false⟩,
  ⟨.dey, .imp, 1, 2, false, .none, true⟩,
  ⟨.nopStar, .imm, 2, 2, false, .read, false⟩,
  ⟨.txa, .imp, 1, 2, false, .none, true⟩,
  ⟨.ane, .imm, 2, 2, false, .read, false⟩,
  ⟨.sty, .abs, 3, 4, false, .write, true⟩,
  ⟨.sta, .abs, 3, 4, false, .write, true⟩,
  ⟨.stx, .abs, 3, 4, false, .write, true⟩,
  ⟨.sax, .abs, 3, 4, false, .write, false⟩]

/-- Row 9x of R89. -/
def tableRow9 : List Row := [
  ⟨.bcc, .rel, 2, 2, false, .none, true⟩,
  ⟨.sta, .indY, 2, 6, false, .write, true⟩,
  ⟨.jam, .imp, 1, 1, false, .none, false⟩,
  ⟨.sha, .indY, 2, 6, false, .write, false⟩,
  ⟨.sty, .zpX, 2, 4, false, .write, true⟩,
  ⟨.sta, .zpX, 2, 4, false, .write, true⟩,
  ⟨.stx, .zpY, 2, 4, false, .write, true⟩,
  ⟨.sax, .zpY, 2, 4, false, .write, false⟩,
  ⟨.tya, .imp, 1, 2, false, .none, true⟩,
  ⟨.sta, .absY, 3, 5, false, .write, true⟩,
  ⟨.txs, .imp, 1, 2, false, .none, true⟩,
  ⟨.tas, .absY, 3, 5, false, .write, false⟩,
  ⟨.shy, .absX, 3, 5, false, .write, false⟩,
  ⟨.sta, .absX, 3, 5, false, .write, true⟩,
  ⟨.shx, .absY, 3, 5, false, .write, false⟩,
  ⟨.sha, .absY, 3, 5, false, .write, false⟩]

/-- Row Ax of R89. -/
def tableRowA : List Row := [
  ⟨.ldy, .imm, 2, 2, false, .read, true⟩,
  ⟨.lda, .indX, 2, 6, false, .read, true⟩,
  ⟨.ldx, .imm, 2, 2, false, .read, true⟩,
  ⟨.lax, .indX, 2, 6, false, .read, false⟩,
  ⟨.ldy, .zp, 2, 3, false, .read, true⟩,
  ⟨.lda, .zp, 2, 3, false, .read, true⟩,
  ⟨.ldx, .zp, 2, 3, false, .read, true⟩,
  ⟨.lax, .zp, 2, 3, false, .read, false⟩,
  ⟨.tay, .imp, 1, 2, false, .none, true⟩,
  ⟨.lda, .imm, 2, 2, false, .read, true⟩,
  ⟨.tax, .imp, 1, 2, false, .none, true⟩,
  ⟨.lxa, .imm, 2, 2, false, .read, false⟩,
  ⟨.ldy, .abs, 3, 4, false, .read, true⟩,
  ⟨.lda, .abs, 3, 4, false, .read, true⟩,
  ⟨.ldx, .abs, 3, 4, false, .read, true⟩,
  ⟨.lax, .abs, 3, 4, false, .read, false⟩]

/-- Row Bx of R89. -/
def tableRowB : List Row := [
  ⟨.bcs, .rel, 2, 2, false, .none, true⟩,
  ⟨.lda, .indY, 2, 5, true, .read, true⟩,
  ⟨.jam, .imp, 1, 1, false, .none, false⟩,
  ⟨.lax, .indY, 2, 5, true, .read, false⟩,
  ⟨.ldy, .zpX, 2, 4, false, .read, true⟩,
  ⟨.lda, .zpX, 2, 4, false, .read, true⟩,
  ⟨.ldx, .zpY, 2, 4, false, .read, true⟩,
  ⟨.lax, .zpY, 2, 4, false, .read, false⟩,
  ⟨.clv, .imp, 1, 2, false, .none, true⟩,
  ⟨.lda, .absY, 3, 4, true, .read, true⟩,
  ⟨.tsx, .imp, 1, 2, false, .none, true⟩,
  ⟨.las, .absY, 3, 4, true, .read, false⟩,
  ⟨.ldy, .absX, 3, 4, true, .read, true⟩,
  ⟨.lda, .absX, 3, 4, true, .read, true⟩,
  ⟨.ldx, .absY, 3, 4, true, .read, true⟩,
  ⟨.lax, .absY, 3, 4, true, .read, false⟩]

/-- Row Cx of R89. -/
def tableRowC : List Row := [
  ⟨.cpy, .imm, 2, 2, false, .read, true⟩,
  ⟨.cmp, .indX, 2, 6, false, .read, true⟩,
  ⟨.nopStar, .imm, 2, 2, false, .read, false⟩,
  ⟨.dcp, .indX, 2, 8, false, .rmw, false⟩,
  ⟨.cpy, .zp, 2, 3, false, .read, true⟩,
  ⟨.cmp, .zp, 2, 3, false, .read, true⟩,
  ⟨.dec, .zp, 2, 5, false, .rmw, true⟩,
  ⟨.dcp, .zp, 2, 5, false, .rmw, false⟩,
  ⟨.iny, .imp, 1, 2, false, .none, true⟩,
  ⟨.cmp, .imm, 2, 2, false, .read, true⟩,
  ⟨.dex, .imp, 1, 2, false, .none, true⟩,
  ⟨.sbx, .imm, 2, 2, false, .read, false⟩,
  ⟨.cpy, .abs, 3, 4, false, .read, true⟩,
  ⟨.cmp, .abs, 3, 4, false, .read, true⟩,
  ⟨.dec, .abs, 3, 6, false, .rmw, true⟩,
  ⟨.dcp, .abs, 3, 6, false, .rmw, false⟩]

/-- Row Dx of R89. -/
def tableRowD : List Row := [
  ⟨.bne, .rel, 2, 2, false, .none, true⟩,
  ⟨.cmp, .indY, 2, 5, true, .read, true⟩,
  ⟨.jam, .imp, 1, 1, false, .none, false⟩,
  ⟨.dcp, .indY, 2, 8, false, .rmw, false⟩,
  ⟨.nopStar, .zpX, 2, 4, false, .read, false⟩,
  ⟨.cmp, .zpX, 2, 4, false, .read, true⟩,
  ⟨.dec, .zpX, 2, 6, false, .rmw, true⟩,
  ⟨.dcp, .zpX, 2, 6, false, .rmw, false⟩,
  ⟨.cld, .imp, 1, 2, false, .none, true⟩,
  ⟨.cmp, .absY, 3, 4, true, .read, true⟩,
  ⟨.nopStar, .imp, 1, 2, false, .none, false⟩,
  ⟨.dcp, .absY, 3, 7, false, .rmw, false⟩,
  ⟨.nopStar, .absX, 3, 4, true, .read, false⟩,
  ⟨.cmp, .absX, 3, 4, true, .read, true⟩,
  ⟨.dec, .absX, 3, 7, false, .rmw, true⟩,
  ⟨.dcp, .absX, 3, 7, false, .rmw, false⟩]

/-- Row Ex of R89. -/
def tableRowE : List Row := [
  ⟨.cpx, .imm, 2, 2, false, .read, true⟩,
  ⟨.sbc, .indX, 2, 6, false, .read, true⟩,
  ⟨.nopStar, .imm, 2, 2, false, .read, false⟩,
  ⟨.isc, .indX, 2, 8, false, .rmw, false⟩,
  ⟨.cpx, .zp, 2, 3, false, .read, true⟩,
  ⟨.sbc, .zp, 2, 3, false, .read, true⟩,
  ⟨.inc, .zp, 2, 5, false, .rmw, true⟩,
  ⟨.isc, .zp, 2, 5, false, .rmw, false⟩,
  ⟨.inx, .imp, 1, 2, false, .none, true⟩,
  ⟨.sbc, .imm, 2, 2, false, .read, true⟩,
  ⟨.nop, .imp, 1, 2, false, .none, true⟩,
  ⟨.usbc, .imm, 2, 2, false, .read, false⟩,
  ⟨.cpx, .abs, 3, 4, false, .read, true⟩,
  ⟨.sbc, .abs, 3, 4, false, .read, true⟩,
  ⟨.inc, .abs, 3, 6, false, .rmw, true⟩,
  ⟨.isc, .abs, 3, 6, false, .rmw, false⟩]

/-- Row Fx of R89. -/
def tableRowF : List Row := [
  ⟨.beq, .rel, 2, 2, false, .none, true⟩,
  ⟨.sbc, .indY, 2, 5, true, .read, true⟩,
  ⟨.jam, .imp, 1, 1, false, .none, false⟩,
  ⟨.isc, .indY, 2, 8, false, .rmw, false⟩,
  ⟨.nopStar, .zpX, 2, 4, false, .read, false⟩,
  ⟨.sbc, .zpX, 2, 4, false, .read, true⟩,
  ⟨.inc, .zpX, 2, 6, false, .rmw, true⟩,
  ⟨.isc, .zpX, 2, 6, false, .rmw, false⟩,
  ⟨.sed, .imp, 1, 2, false, .none, true⟩,
  ⟨.sbc, .absY, 3, 4, true, .read, true⟩,
  ⟨.nopStar, .imp, 1, 2, false, .none, false⟩,
  ⟨.isc, .absY, 3, 7, false, .rmw, false⟩,
  ⟨.nopStar, .absX, 3, 4, true, .read, false⟩,
  ⟨.sbc, .absX, 3, 4, true, .read, true⟩,
  ⟨.inc, .absX, 3, 7, false, .rmw, true⟩,
  ⟨.isc, .absX, 3, 7, false, .rmw, false⟩]

/-- The table of R89, by high and low hexadecimal digit of the opcode byte. -/
def opcodeTable : List (List Row) := [
  tableRow0, tableRow1, tableRow2, tableRow3, tableRow4, tableRow5, tableRow6, tableRow7,
  tableRow8, tableRow9, tableRowA, tableRowB, tableRowC, tableRowD, tableRowE, tableRowF]

/-- The table's row of an opcode byte. The default is never used: the table has all 256 rows (R87). -/
def rowOf (op : Byte) : Row :=
  ((opcodeTable.getD (op.toNat / 16) []).getD (op.toNat % 16) ⟨.brk, .imp, 2, 7, false, .none, true⟩)

/-- Row 0x of R88: what each opcode byte makes of the two bytes after it. -/
def decodeRow0 : List (Byte → Byte → Instr) := [
  fun n _ => .brk n,
  fun n _ => .oraIndX n,
  fun _ _ => .jam02,
  fun n _ => .sloIndX n,
  fun n _ => .nop04Zp n,
  fun n _ => .oraZp n,
  fun n _ => .aslZp n,
  fun n _ => .sloZp n,
  fun _ _ => .php,
  fun n _ => .oraImm n,
  fun _ _ => .aslAcc,
  fun n _ => .anc0BImm n,
  fun lo hi => .nop0CAbs lo hi,
  fun lo hi => .oraAbs lo hi,
  fun lo hi => .aslAbs lo hi,
  fun lo hi => .sloAbs lo hi]

/-- Row 1x of R88: what each opcode byte makes of the two bytes after it. -/
def decodeRow1 : List (Byte → Byte → Instr) := [
  fun n _ => .bpl n,
  fun n _ => .oraIndY n,
  fun _ _ => .jam12,
  fun n _ => .sloIndY n,
  fun n _ => .nop14ZpX n,
  fun n _ => .oraZpX n,
  fun n _ => .aslZpX n,
  fun n _ => .sloZpX n,
  fun _ _ => .clc,
  fun lo hi => .oraAbsY lo hi,
  fun _ _ => .nop1A,
  fun lo hi => .sloAbsY lo hi,
  fun lo hi => .nop1CAbsX lo hi,
  fun lo hi => .oraAbsX lo hi,
  fun lo hi => .aslAbsX lo hi,
  fun lo hi => .sloAbsX lo hi]

/-- Row 2x of R88: what each opcode byte makes of the two bytes after it. -/
def decodeRow2 : List (Byte → Byte → Instr) := [
  fun lo hi => .jsrAbs lo hi,
  fun n _ => .andIndX n,
  fun _ _ => .jam22,
  fun n _ => .rlaIndX n,
  fun n _ => .bitZp n,
  fun n _ => .andZp n,
  fun n _ => .rolZp n,
  fun n _ => .rlaZp n,
  fun _ _ => .plp,
  fun n _ => .andImm n,
  fun _ _ => .rolAcc,
  fun n _ => .anc2BImm n,
  fun lo hi => .bitAbs lo hi,
  fun lo hi => .andAbs lo hi,
  fun lo hi => .rolAbs lo hi,
  fun lo hi => .rlaAbs lo hi]

/-- Row 3x of R88: what each opcode byte makes of the two bytes after it. -/
def decodeRow3 : List (Byte → Byte → Instr) := [
  fun n _ => .bmi n,
  fun n _ => .andIndY n,
  fun _ _ => .jam32,
  fun n _ => .rlaIndY n,
  fun n _ => .nop34ZpX n,
  fun n _ => .andZpX n,
  fun n _ => .rolZpX n,
  fun n _ => .rlaZpX n,
  fun _ _ => .sec,
  fun lo hi => .andAbsY lo hi,
  fun _ _ => .nop3A,
  fun lo hi => .rlaAbsY lo hi,
  fun lo hi => .nop3CAbsX lo hi,
  fun lo hi => .andAbsX lo hi,
  fun lo hi => .rolAbsX lo hi,
  fun lo hi => .rlaAbsX lo hi]

/-- Row 4x of R88: what each opcode byte makes of the two bytes after it. -/
def decodeRow4 : List (Byte → Byte → Instr) := [
  fun _ _ => .rti,
  fun n _ => .eorIndX n,
  fun _ _ => .jam42,
  fun n _ => .sreIndX n,
  fun n _ => .nop44Zp n,
  fun n _ => .eorZp n,
  fun n _ => .lsrZp n,
  fun n _ => .sreZp n,
  fun _ _ => .pha,
  fun n _ => .eorImm n,
  fun _ _ => .lsrAcc,
  fun n _ => .alrImm n,
  fun lo hi => .jmpAbs lo hi,
  fun lo hi => .eorAbs lo hi,
  fun lo hi => .lsrAbs lo hi,
  fun lo hi => .sreAbs lo hi]

/-- Row 5x of R88: what each opcode byte makes of the two bytes after it. -/
def decodeRow5 : List (Byte → Byte → Instr) := [
  fun n _ => .bvc n,
  fun n _ => .eorIndY n,
  fun _ _ => .jam52,
  fun n _ => .sreIndY n,
  fun n _ => .nop54ZpX n,
  fun n _ => .eorZpX n,
  fun n _ => .lsrZpX n,
  fun n _ => .sreZpX n,
  fun _ _ => .cli,
  fun lo hi => .eorAbsY lo hi,
  fun _ _ => .nop5A,
  fun lo hi => .sreAbsY lo hi,
  fun lo hi => .nop5CAbsX lo hi,
  fun lo hi => .eorAbsX lo hi,
  fun lo hi => .lsrAbsX lo hi,
  fun lo hi => .sreAbsX lo hi]

/-- Row 6x of R88: what each opcode byte makes of the two bytes after it. -/
def decodeRow6 : List (Byte → Byte → Instr) := [
  fun _ _ => .rts,
  fun n _ => .adcIndX n,
  fun _ _ => .jam62,
  fun n _ => .rraIndX n,
  fun n _ => .nop64Zp n,
  fun n _ => .adcZp n,
  fun n _ => .rorZp n,
  fun n _ => .rraZp n,
  fun _ _ => .pla,
  fun n _ => .adcImm n,
  fun _ _ => .rorAcc,
  fun n _ => .arrImm n,
  fun lo hi => .jmpInd lo hi,
  fun lo hi => .adcAbs lo hi,
  fun lo hi => .rorAbs lo hi,
  fun lo hi => .rraAbs lo hi]

/-- Row 7x of R88: what each opcode byte makes of the two bytes after it. -/
def decodeRow7 : List (Byte → Byte → Instr) := [
  fun n _ => .bvs n,
  fun n _ => .adcIndY n,
  fun _ _ => .jam72,
  fun n _ => .rraIndY n,
  fun n _ => .nop74ZpX n,
  fun n _ => .adcZpX n,
  fun n _ => .rorZpX n,
  fun n _ => .rraZpX n,
  fun _ _ => .sei,
  fun lo hi => .adcAbsY lo hi,
  fun _ _ => .nop7A,
  fun lo hi => .rraAbsY lo hi,
  fun lo hi => .nop7CAbsX lo hi,
  fun lo hi => .adcAbsX lo hi,
  fun lo hi => .rorAbsX lo hi,
  fun lo hi => .rraAbsX lo hi]

/-- Row 8x of R88: what each opcode byte makes of the two bytes after it. -/
def decodeRow8 : List (Byte → Byte → Instr) := [
  fun n _ => .nop80Imm n,
  fun n _ => .staIndX n,
  fun n _ => .nop82Imm n,
  fun n _ => .saxIndX n,
  fun n _ => .styZp n,
  fun n _ => .staZp n,
  fun n _ => .stxZp n,
  fun n _ => .saxZp n,
  fun _ _ => .dey,
  fun n _ => .nop89Imm n,
  fun _ _ => .txa,
  fun n _ => .aneImm n,
  fun lo hi => .styAbs lo hi,
  fun lo hi => .staAbs lo hi,
  fun lo hi => .stxAbs lo hi,
  fun lo hi => .saxAbs lo hi]

/-- Row 9x of R88: what each opcode byte makes of the two bytes after it. -/
def decodeRow9 : List (Byte → Byte → Instr) := [
  fun n _ => .bcc n,
  fun n _ => .staIndY n,
  fun _ _ => .jam92,
  fun n _ => .shaIndY n,
  fun n _ => .styZpX n,
  fun n _ => .staZpX n,
  fun n _ => .stxZpY n,
  fun n _ => .saxZpY n,
  fun _ _ => .tya,
  fun lo hi => .staAbsY lo hi,
  fun _ _ => .txs,
  fun lo hi => .tasAbsY lo hi,
  fun lo hi => .shyAbsX lo hi,
  fun lo hi => .staAbsX lo hi,
  fun lo hi => .shxAbsY lo hi,
  fun lo hi => .shaAbsY lo hi]

/-- Row Ax of R88: what each opcode byte makes of the two bytes after it. -/
def decodeRowA : List (Byte → Byte → Instr) := [
  fun n _ => .ldyImm n,
  fun n _ => .ldaIndX n,
  fun n _ => .ldxImm n,
  fun n _ => .laxIndX n,
  fun n _ => .ldyZp n,
  fun n _ => .ldaZp n,
  fun n _ => .ldxZp n,
  fun n _ => .laxZp n,
  fun _ _ => .tay,
  fun n _ => .ldaImm n,
  fun _ _ => .tax,
  fun n _ => .lxaImm n,
  fun lo hi => .ldyAbs lo hi,
  fun lo hi => .ldaAbs lo hi,
  fun lo hi => .ldxAbs lo hi,
  fun lo hi => .laxAbs lo hi]

/-- Row Bx of R88: what each opcode byte makes of the two bytes after it. -/
def decodeRowB : List (Byte → Byte → Instr) := [
  fun n _ => .bcs n,
  fun n _ => .ldaIndY n,
  fun _ _ => .jamB2,
  fun n _ => .laxIndY n,
  fun n _ => .ldyZpX n,
  fun n _ => .ldaZpX n,
  fun n _ => .ldxZpY n,
  fun n _ => .laxZpY n,
  fun _ _ => .clv,
  fun lo hi => .ldaAbsY lo hi,
  fun _ _ => .tsx,
  fun lo hi => .lasAbsY lo hi,
  fun lo hi => .ldyAbsX lo hi,
  fun lo hi => .ldaAbsX lo hi,
  fun lo hi => .ldxAbsY lo hi,
  fun lo hi => .laxAbsY lo hi]

/-- Row Cx of R88: what each opcode byte makes of the two bytes after it. -/
def decodeRowC : List (Byte → Byte → Instr) := [
  fun n _ => .cpyImm n,
  fun n _ => .cmpIndX n,
  fun n _ => .nopC2Imm n,
  fun n _ => .dcpIndX n,
  fun n _ => .cpyZp n,
  fun n _ => .cmpZp n,
  fun n _ => .decZp n,
  fun n _ => .dcpZp n,
  fun _ _ => .iny,
  fun n _ => .cmpImm n,
  fun _ _ => .dex,
  fun n _ => .sbxImm n,
  fun lo hi => .cpyAbs lo hi,
  fun lo hi => .cmpAbs lo hi,
  fun lo hi => .decAbs lo hi,
  fun lo hi => .dcpAbs lo hi]

/-- Row Dx of R88: what each opcode byte makes of the two bytes after it. -/
def decodeRowD : List (Byte → Byte → Instr) := [
  fun n _ => .bne n,
  fun n _ => .cmpIndY n,
  fun _ _ => .jamD2,
  fun n _ => .dcpIndY n,
  fun n _ => .nopD4ZpX n,
  fun n _ => .cmpZpX n,
  fun n _ => .decZpX n,
  fun n _ => .dcpZpX n,
  fun _ _ => .cld,
  fun lo hi => .cmpAbsY lo hi,
  fun _ _ => .nopDA,
  fun lo hi => .dcpAbsY lo hi,
  fun lo hi => .nopDCAbsX lo hi,
  fun lo hi => .cmpAbsX lo hi,
  fun lo hi => .decAbsX lo hi,
  fun lo hi => .dcpAbsX lo hi]

/-- Row Ex of R88: what each opcode byte makes of the two bytes after it. -/
def decodeRowE : List (Byte → Byte → Instr) := [
  fun n _ => .cpxImm n,
  fun n _ => .sbcIndX n,
  fun n _ => .nopE2Imm n,
  fun n _ => .iscIndX n,
  fun n _ => .cpxZp n,
  fun n _ => .sbcZp n,
  fun n _ => .incZp n,
  fun n _ => .iscZp n,
  fun _ _ => .inx,
  fun n _ => .sbcImm n,
  fun _ _ => .nop,
  fun n _ => .usbcImm n,
  fun lo hi => .cpxAbs lo hi,
  fun lo hi => .sbcAbs lo hi,
  fun lo hi => .incAbs lo hi,
  fun lo hi => .iscAbs lo hi]

/-- Row Fx of R88: what each opcode byte makes of the two bytes after it. -/
def decodeRowF : List (Byte → Byte → Instr) := [
  fun n _ => .beq n,
  fun n _ => .sbcIndY n,
  fun _ _ => .jamF2,
  fun n _ => .iscIndY n,
  fun n _ => .nopF4ZpX n,
  fun n _ => .sbcZpX n,
  fun n _ => .incZpX n,
  fun n _ => .iscZpX n,
  fun _ _ => .sed,
  fun lo hi => .sbcAbsY lo hi,
  fun _ _ => .nopFA,
  fun lo hi => .iscAbsY lo hi,
  fun lo hi => .nopFCAbsX lo hi,
  fun lo hi => .sbcAbsX lo hi,
  fun lo hi => .incAbsX lo hi,
  fun lo hi => .iscAbsX lo hi]

/-- The opcode map of R88. -/
def decodeMap : List (List (Byte → Byte → Instr)) := [
  decodeRow0, decodeRow1, decodeRow2, decodeRow3, decodeRow4, decodeRow5, decodeRow6, decodeRow7,
  decodeRow8, decodeRow9, decodeRowA, decodeRowB, decodeRowC, decodeRowD, decodeRowE, decodeRowF]

/-- Why a list of bytes is not decoded. -/
inductive DecodeError where
  /-- There is no byte at all. -/
  | noBytes
  /-- The list ends before the last operand byte of this opcode (R82). -/
  | truncated (op : Byte)
  /-- The opcode map has no entry; no opcode byte leads here (R87). -/
  | noEntry (op : Byte)
  deriving DecidableEq, Repr

/-- The instruction of an opcode byte and the two bytes after it. -/
def instrOf (op n m : Byte) : Except DecodeError Instr :=
  match decodeMap[op.toNat / 16]? with
  | none => .error (.noEntry op)
  | some cells =>
    match cells[op.toNat % 16]? with
    | none => .error (.noEntry op)
    | some cell => .ok (cell n m)

/-- Decode the first instruction of a list of bytes, in the order of increasing addresses (R80), and give the
bytes after it. The opcode byte alone tells the length (R82). -/
def decode : List Byte → Except DecodeError (Instr × List Byte)
  | [] => .error .noBytes
  | op :: rest =>
    match (rowOf op).bytes, rest with
    | 1, _ => (instrOf op 0 0).map (·, rest)
    | 2, n :: rest' => (instrOf op n 0).map (·, rest')
    | 3, lo :: hi :: rest' => (instrOf op lo hi).map (·, rest')
    | _, _ => .error (.truncated op)

/-- The three bytes that hold the bits of a table word: byte k is bits 8k+7..8k, zero above `nbits`. -/
def tableWordBytes (nbits w : Nat) : List Byte :=
  let v := w % 2 ^ nbits
  [BitVec.ofNat 8 v, BitVec.ofNat 8 (v / 256), BitVec.ofNat 8 (v / 65536)]

/-- What the decoder reads from an instruction whose bits are `w`, numbered as the opcode table numbers them. -/
def decodeTableWord (nbits w : Nat) : Option Instr :=
  match decode (tableWordBytes nbits w) with
  | .ok (i, _) => some i
  | .error _ => none

/-! ### The encoder -/

/-- The bytes of an instruction, opcode first (R80, R81), written from the encodings of the instruction rules. -/
def encode : Instr → List Byte
  | .ldaIndX n => [0xA1, n]
  | .ldaZp n => [0xA5, n]
  | .ldaImm n => [0xA9, n]
  | .ldaAbs lo hi => [0xAD, lo, hi]
  | .ldaIndY n => [0xB1, n]
  | .ldaZpX n => [0xB5, n]
  | .ldaAbsY lo hi => [0xB9, lo, hi]
  | .ldaAbsX lo hi => [0xBD, lo, hi]
  | .ldxImm n => [0xA2, n]
  | .ldxZp n => [0xA6, n]
  | .ldxAbs lo hi => [0xAE, lo, hi]
  | .ldxZpY n => [0xB6, n]
  | .ldxAbsY lo hi => [0xBE, lo, hi]
  | .ldyImm n => [0xA0, n]
  | .ldyZp n => [0xA4, n]
  | .ldyAbs lo hi => [0xAC, lo, hi]
  | .ldyZpX n => [0xB4, n]
  | .ldyAbsX lo hi => [0xBC, lo, hi]
  | .staIndX n => [0x81, n]
  | .staZp n => [0x85, n]
  | .staAbs lo hi => [0x8D, lo, hi]
  | .staIndY n => [0x91, n]
  | .staZpX n => [0x95, n]
  | .staAbsY lo hi => [0x99, lo, hi]
  | .staAbsX lo hi => [0x9D, lo, hi]
  | .stxZp n => [0x86, n]
  | .stxAbs lo hi => [0x8E, lo, hi]
  | .stxZpY n => [0x96, n]
  | .styZp n => [0x84, n]
  | .styAbs lo hi => [0x8C, lo, hi]
  | .styZpX n => [0x94, n]
  | .tax => [0xAA]
  | .tay => [0xA8]
  | .txa => [0x8A]
  | .tya => [0x98]
  | .tsx => [0xBA]
  | .txs => [0x9A]
  | .adcIndX n => [0x61, n]
  | .adcZp n => [0x65, n]
  | .adcImm n => [0x69, n]
  | .adcAbs lo hi => [0x6D, lo, hi]
  | .adcIndY n => [0x71, n]
  | .adcZpX n => [0x75, n]
  | .adcAbsY lo hi => [0x79, lo, hi]
  | .adcAbsX lo hi => [0x7D, lo, hi]
  | .sbcIndX n => [0xE1, n]
  | .sbcZp n => [0xE5, n]
  | .sbcImm n => [0xE9, n]
  | .sbcAbs lo hi => [0xED, lo, hi]
  | .sbcIndY n => [0xF1, n]
  | .sbcZpX n => [0xF5, n]
  | .sbcAbsY lo hi => [0xF9, lo, hi]
  | .sbcAbsX lo hi => [0xFD, lo, hi]
  | .andIndX n => [0x21, n]
  | .andZp n => [0x25, n]
  | .andImm n => [0x29, n]
  | .andAbs lo hi => [0x2D, lo, hi]
  | .andIndY n => [0x31, n]
  | .andZpX n => [0x35, n]
  | .andAbsY lo hi => [0x39, lo, hi]
  | .andAbsX lo hi => [0x3D, lo, hi]
  | .oraIndX n => [0x01, n]
  | .oraZp n => [0x05, n]
  | .oraImm n => [0x09, n]
  | .oraAbs lo hi => [0x0D, lo, hi]
  | .oraIndY n => [0x11, n]
  | .oraZpX n => [0x15, n]
  | .oraAbsY lo hi => [0x19, lo, hi]
  | .oraAbsX lo hi => [0x1D, lo, hi]
  | .eorIndX n => [0x41, n]
  | .eorZp n => [0x45, n]
  | .eorImm n => [0x49, n]
  | .eorAbs lo hi => [0x4D, lo, hi]
  | .eorIndY n => [0x51, n]
  | .eorZpX n => [0x55, n]
  | .eorAbsY lo hi => [0x59, lo, hi]
  | .eorAbsX lo hi => [0x5D, lo, hi]
  | .cmpIndX n => [0xC1, n]
  | .cmpZp n => [0xC5, n]
  | .cmpImm n => [0xC9, n]
  | .cmpAbs lo hi => [0xCD, lo, hi]
  | .cmpIndY n => [0xD1, n]
  | .cmpZpX n => [0xD5, n]
  | .cmpAbsY lo hi => [0xD9, lo, hi]
  | .cmpAbsX lo hi => [0xDD, lo, hi]
  | .cpxImm n => [0xE0, n]
  | .cpxZp n => [0xE4, n]
  | .cpxAbs lo hi => [0xEC, lo, hi]
  | .cpyImm n => [0xC0, n]
  | .cpyZp n => [0xC4, n]
  | .cpyAbs lo hi => [0xCC, lo, hi]
  | .bitZp n => [0x24, n]
  | .bitAbs lo hi => [0x2C, lo, hi]
  | .incZp n => [0xE6, n]
  | .incAbs lo hi => [0xEE, lo, hi]
  | .incZpX n => [0xF6, n]
  | .incAbsX lo hi => [0xFE, lo, hi]
  | .decZp n => [0xC6, n]
  | .decAbs lo hi => [0xCE, lo, hi]
  | .decZpX n => [0xD6, n]
  | .decAbsX lo hi => [0xDE, lo, hi]
  | .inx => [0xE8]
  | .iny => [0xC8]
  | .dex => [0xCA]
  | .dey => [0x88]
  | .aslZp n => [0x06, n]
  | .aslAcc => [0x0A]
  | .aslAbs lo hi => [0x0E, lo, hi]
  | .aslZpX n => [0x16, n]
  | .aslAbsX lo hi => [0x1E, lo, hi]
  | .lsrZp n => [0x46, n]
  | .lsrAcc => [0x4A]
  | .lsrAbs lo hi => [0x4E, lo, hi]
  | .lsrZpX n => [0x56, n]
  | .lsrAbsX lo hi => [0x5E, lo, hi]
  | .rolZp n => [0x26, n]
  | .rolAcc => [0x2A]
  | .rolAbs lo hi => [0x2E, lo, hi]
  | .rolZpX n => [0x36, n]
  | .rolAbsX lo hi => [0x3E, lo, hi]
  | .rorZp n => [0x66, n]
  | .rorAcc => [0x6A]
  | .rorAbs lo hi => [0x6E, lo, hi]
  | .rorZpX n => [0x76, n]
  | .rorAbsX lo hi => [0x7E, lo, hi]
  | .pha => [0x48]
  | .php => [0x08]
  | .pla => [0x68]
  | .plp => [0x28]
  | .jmpAbs lo hi => [0x4C, lo, hi]
  | .jmpInd lo hi => [0x6C, lo, hi]
  | .jsrAbs lo hi => [0x20, lo, hi]
  | .rts => [0x60]
  | .rti => [0x40]
  | .brk pad => [0x00, pad]
  | .bcc n => [0x90, n]
  | .bcs n => [0xB0, n]
  | .beq n => [0xF0, n]
  | .bne n => [0xD0, n]
  | .bmi n => [0x30, n]
  | .bpl n => [0x10, n]
  | .bvc n => [0x50, n]
  | .bvs n => [0x70, n]
  | .clc => [0x18]
  | .cld => [0xD8]
  | .cli => [0x58]
  | .clv => [0xB8]
  | .sec => [0x38]
  | .sed => [0xF8]
  | .sei => [0x78]
  | .nop => [0xEA]
  | .nop04Zp n => [0x04, n]
  | .nop0CAbs lo hi => [0x0C, lo, hi]
  | .nop14ZpX n => [0x14, n]
  | .nop1A => [0x1A]
  | .nop1CAbsX lo hi => [0x1C, lo, hi]
  | .nop34ZpX n => [0x34, n]
  | .nop3A => [0x3A]
  | .nop3CAbsX lo hi => [0x3C, lo, hi]
  | .nop44Zp n => [0x44, n]
  | .nop54ZpX n => [0x54, n]
  | .nop5A => [0x5A]
  | .nop5CAbsX lo hi => [0x5C, lo, hi]
  | .nop64Zp n => [0x64, n]
  | .nop74ZpX n => [0x74, n]
  | .nop7A => [0x7A]
  | .nop7CAbsX lo hi => [0x7C, lo, hi]
  | .nop80Imm n => [0x80, n]
  | .nop82Imm n => [0x82, n]
  | .nop89Imm n => [0x89, n]
  | .nopC2Imm n => [0xC2, n]
  | .nopD4ZpX n => [0xD4, n]
  | .nopDA => [0xDA]
  | .nopDCAbsX lo hi => [0xDC, lo, hi]
  | .nopE2Imm n => [0xE2, n]
  | .nopF4ZpX n => [0xF4, n]
  | .nopFA => [0xFA]
  | .nopFCAbsX lo hi => [0xFC, lo, hi]
  | .sloIndX n => [0x03, n]
  | .sloZp n => [0x07, n]
  | .sloAbs lo hi => [0x0F, lo, hi]
  | .sloIndY n => [0x13, n]
  | .sloZpX n => [0x17, n]
  | .sloAbsY lo hi => [0x1B, lo, hi]
  | .sloAbsX lo hi => [0x1F, lo, hi]
  | .rlaIndX n => [0x23, n]
  | .rlaZp n => [0x27, n]
  | .rlaAbs lo hi => [0x2F, lo, hi]
  | .rlaIndY n => [0x33, n]
  | .rlaZpX n => [0x37, n]
  | .rlaAbsY lo hi => [0x3B, lo, hi]
  | .rlaAbsX lo hi => [0x3F, lo, hi]
  | .sreIndX n => [0x43, n]
  | .sreZp n => [0x47, n]
  | .sreAbs lo hi => [0x4F, lo, hi]
  | .sreIndY n => [0x53, n]
  | .sreZpX n => [0x57, n]
  | .sreAbsY lo hi => [0x5B, lo, hi]
  | .sreAbsX lo hi => [0x5F, lo, hi]
  | .rraIndX n => [0x63, n]
  | .rraZp n => [0x67, n]
  | .rraAbs lo hi => [0x6F, lo, hi]
  | .rraIndY n => [0x73, n]
  | .rraZpX n => [0x77, n]
  | .rraAbsY lo hi => [0x7B, lo, hi]
  | .rraAbsX lo hi => [0x7F, lo, hi]
  | .saxIndX n => [0x83, n]
  | .saxZp n => [0x87, n]
  | .saxAbs lo hi => [0x8F, lo, hi]
  | .saxZpY n => [0x97, n]
  | .laxIndX n => [0xA3, n]
  | .laxZp n => [0xA7, n]
  | .laxAbs lo hi => [0xAF, lo, hi]
  | .laxIndY n => [0xB3, n]
  | .laxZpY n => [0xB7, n]
  | .laxAbsY lo hi => [0xBF, lo, hi]
  | .dcpIndX n => [0xC3, n]
  | .dcpZp n => [0xC7, n]
  | .dcpAbs lo hi => [0xCF, lo, hi]
  | .dcpIndY n => [0xD3, n]
  | .dcpZpX n => [0xD7, n]
  | .dcpAbsY lo hi => [0xDB, lo, hi]
  | .dcpAbsX lo hi => [0xDF, lo, hi]
  | .iscIndX n => [0xE3, n]
  | .iscZp n => [0xE7, n]
  | .iscAbs lo hi => [0xEF, lo, hi]
  | .iscIndY n => [0xF3, n]
  | .iscZpX n => [0xF7, n]
  | .iscAbsY lo hi => [0xFB, lo, hi]
  | .iscAbsX lo hi => [0xFF, lo, hi]
  | .anc0BImm n => [0x0B, n]
  | .anc2BImm n => [0x2B, n]
  | .alrImm n => [0x4B, n]
  | .arrImm n => [0x6B, n]
  | .sbxImm n => [0xCB, n]
  | .usbcImm n => [0xEB, n]
  | .aneImm n => [0x8B, n]
  | .lxaImm n => [0xAB, n]
  | .shaIndY n => [0x93, n]
  | .shaAbsY lo hi => [0x9F, lo, hi]
  | .shxAbsY lo hi => [0x9E, lo, hi]
  | .shyAbsX lo hi => [0x9C, lo, hi]
  | .tasAbsY lo hi => [0x9B, lo, hi]
  | .lasAbsY lo hi => [0xBB, lo, hi]
  | .jam02 => [0x02]
  | .jam12 => [0x12]
  | .jam22 => [0x22]
  | .jam32 => [0x32]
  | .jam42 => [0x42]
  | .jam52 => [0x52]
  | .jam62 => [0x62]
  | .jam72 => [0x72]
  | .jam92 => [0x92]
  | .jamB2 => [0xB2]
  | .jamD2 => [0xD2]
  | .jamF2 => [0xF2]

/-- The opcode byte of an instruction. -/
def Instr.opcode (i : Instr) : Byte := (encode i).headD 0

/-- The operand bytes of an instruction, 0 where it has none. -/
def Instr.operandBytes (i : Instr) : Byte × Byte :=
  match encode i with
  | [_, n] => (n, 0)
  | [_, lo, hi] => (lo, hi)
  | _ => (0, 0)

/-- The instruction's row of the table (R89). -/
def Instr.row (i : Instr) : Row :=
  match encode i with
  | [] => rowOf 0
  | op :: _ => rowOf op

/-- The instruction's mnemonic. -/
def Instr.mnemonic (i : Instr) : Mnemonic := i.row.mnemonic

end Sys2Proof
end

