-- ==== Sys2Proof/Config.lean ====
section
/-! DEFINITION. What an implementation fixes (the named parameters of spec/00_scope.md R6) and the free
values (what the spec leaves to the chip or to the bus). A parameter is a field of `Params`, which State
carries and no step changes, so a statement about every state holds for every setting; `Config.params`
is the setting a machine has at reset. A constant declared `opaque` has no body: nothing can be proved of
its value. -/

namespace Sys2Proof

/-- `P_SH_CROSS` (R6, D17): what SHA, SHX, SHY and TAS do when the indexed address crosses a page (R284). -/
inductive ShCross where
  /-- The store goes to `word(val, lo(EA))`. -/
  | formula
  /-- The step ends `Refused(UnstableOpcode op)` before the write. -/
  | refuse
  deriving DecidableEq, Repr

/-- `P_BUS_TRACE` (R6, D5): whether dummy accesses are performed (R118) or dropped (R119). -/
inductive BusTrace where
  | full
  | architectural
  deriving DecidableEq, Repr

/-- The named parameters of R6 that a step reads. -/
structure Params where
  /-- `P_UNOFFICIAL`: the unofficial opcode bytes that execute (R260). -/
  unofficial : List Byte
  /-- `P_ANE_MAGIC`: the constant OR-ed into A by ANE (R275). -/
  aneMagic : Byte
  /-- `P_LXA_MAGIC`: the constant OR-ed into A by LXA (R276). -/
  lxaMagic : Byte
  /-- `P_SH_CROSS` (R284). -/
  shCross : ShCross
  /-- `P_BUS_TRACE` (R118, R119). -/
  busTrace : BusTrace
  deriving DecidableEq, Repr

/-- `P_POWERON` (R6, R342): what A, X, Y and the flags reset does not write hold at power-on. -/
structure PowerOn where
  a : Byte
  x : Byte
  y : Byte
  c : Bool
  z : Bool
  d : Bool
  v : Bool
  n : Bool
  deriving DecidableEq, Repr

/-- FREE VALUE: the ANE constant of this chip, OPEN in the spec (D16, U4; notes/assumptions/3). -/
opaque Config.aneMagic : Byte

/-- FREE VALUE: the LXA constant of this chip, OPEN in the spec (D16, U4; notes/assumptions/3). -/
opaque Config.lxaMagic : Byte

/-- FREE VALUE: the byte the bus answers to the n-th read of an address that is not plain memory, "under no
law" (R51, D19, U2, U15; notes/assumptions/2). The first argument is State's count of such reads. -/
opaque Config.busByte : Nat → Addr → Byte

/-- What an address of plain memory reads as when nothing has been written there (DESIGN CHOICE: U10 leaves
RAM at power-on open; notes/assumptions/1). -/
def Config.blankByte : Byte := 0x00

/-- JAM (R282). -/
def Config.jamOpcodes : List Byte :=
  [0x02, 0x12, 0x22, 0x32, 0x42, 0x52, 0x62, 0x72, 0x92, 0xB2, 0xD2, 0xF2]

/-- `NOP*` (R261). -/
def Config.nopStarOpcodes : List Byte :=
  [0x1A, 0x3A, 0x5A, 0x7A, 0xDA, 0xFA] ++ [0x80, 0x82, 0x89, 0xC2, 0xE2] ++ [0x04, 0x44, 0x64] ++
  [0x14, 0x34, 0x54, 0x74, 0xD4, 0xF4] ++ [0x0C] ++ [0x1C, 0x3C, 0x5C, 0x7C, 0xDC, 0xFC]

/-- The combined read-modify-write opcodes SLO, RLA, SRE, RRA, DCP, ISC (R262 to R265, R268, R269). -/
def Config.combinedRmwOpcodes : List Byte :=
  [0x07, 0x17, 0x0F, 0x1F, 0x1B, 0x03, 0x13] ++ [0x27, 0x37, 0x2F, 0x3F, 0x3B, 0x23, 0x33] ++
  [0x47, 0x57, 0x4F, 0x5F, 0x5B, 0x43, 0x53] ++ [0x67, 0x77, 0x6F, 0x7F, 0x7B, 0x63, 0x73] ++
  [0xC7, 0xD7, 0xCF, 0xDF, 0xDB, 0xC3, 0xD3] ++ [0xE7, 0xF7, 0xEF, 0xFF, 0xFB, 0xE3, 0xF3]

/-- SAX, LAX, LAS (R266, R267, R281), the immediate forms ANC, ALR, ARR, SBX, USBC, ANE, LXA
(R270 to R276) and the high-byte AND stores SHA, SHX, SHY, TAS (R277 to R280). -/
def Config.otherUnofficialOpcodes : List Byte :=
  [0x87, 0x97, 0x8F, 0x83] ++ [0xA7, 0xB7, 0xAF, 0xBF, 0xA3, 0xB3] ++ [0xBB] ++
  [0x0B, 0x2B, 0x4B, 0x6B, 0xCB, 0xEB, 0x8B, 0xAB] ++ [0x9F, 0x93, 0x9E, 0x9C, 0x9B]

/-- The 105 unofficial opcode bytes (R87, R260), the default of `P_UNOFFICIAL` (D15). -/
def Config.allUnofficial : List Byte :=
  Config.jamOpcodes ++ Config.nopStarOpcodes ++ Config.combinedRmwOpcodes ++ Config.otherUnofficialOpcodes

/-- The parameters at reset: the defaults of R6, with `P_SH_CROSS = Formula` (DESIGN CHOICE, the setting that
gives the stores an effect; notes/assumptions/4) and the two magic constants free. -/
def Config.params : Params where
  unofficial := Config.allUnofficial
  aneMagic := Config.aneMagic
  lxaMagic := Config.lxaMagic
  shCross := .formula
  busTrace := .full

/-- `P_POWERON` (DESIGN CHOICE: all zero, where R39 and D12 give an open draw; notes/assumptions/5). -/
def Config.powerOn : PowerOn where
  a := 0x00
  x := 0x00
  y := 0x00
  c := false
  z := false
  d := false
  v := false
  n := false

end Sys2Proof
end

