-- ==== Sys2Proof/Machine/Bits.lean ====
section
/-! DEFINITION. The bit-field, extension and byte-order helpers of rule R7, used by every other file. -/

namespace Sys2Proof.Machine

/-- `word(hi, lo)` of R7: the little-endian pair put together (R52). -/
def word (hi lo : Byte) : Addr := hi ++ lo

/-- `hi(w) = w[15:8]` (R7). -/
def hiByte (w : Addr) : Byte := w.extractLsb' 8 8

/-- `lo(w) = w[7:0]` (R7). -/
def loByte (w : Addr) : Byte := w.extractLsb' 0 8

/-- `zext_16` (R7): index registers and zero-page addresses are unsigned (R85). -/
def zext16 (v : Byte) : Addr := v.setWidth 16

/-- `sext_16` (R7): only a branch offset is sign-extended (R85). -/
def sext16 (v : Byte) : Addr := v.signExtend 16

/-- A flag as a u8 with its value in bit 0. -/
def bit (b : Bool) : Byte := if b then 1 else 0

end Sys2Proof.Machine
end

