-- ==== Sys2Proof/Machine/State.lean ====
section
/-! DEFINITION. The state of the machine as plain data, the reasons a step can stop, and the state right
after reset. The core's own state is rule R20's list; around it stand the bus it reads and writes (R50,
D19), its IRQ input (R36), the parameters of R6, and the outputs of the last step (R13: cycle count and
ordered bus trace). -/

namespace Sys2Proof.Machine

/-- The kind of a bus access (R9). -/
inductive BusKind where
  | read
  | write
  deriving DecidableEq, Repr

/-- One entry `(kind, address, value)` of a step's bus trace (R9). -/
structure BusEntry where
  kind : BusKind
  addr : Addr
  value : Byte
  deriving DecidableEq, Repr

/-- A window of the address space, `first` to `last` inclusive, that is not plain memory: a device, ROM or
open bus (R51, R60, R61). The map is the platform's (D19). A read there answers a free value and a write
there leaves plain memory alone. -/
structure DeviceWindow where
  first : Addr
  last : Addr
  deriving DecidableEq, Repr

/-- The plain memory of the 64 KiB space (R50): cells at strictly rising addresses below 65536, none of them
holding `Config.blankByte`, which an unlisted address reads as. -/
abbrev Memory := List Host.Cell

/-- Everything the spec gives the machine. -/
@[ext]
structure State where
  /-- A (R21). -/
  a : Byte
  /-- X (R22). -/
  x : Byte
  /-- Y (R22). -/
  y : Byte
  /-- S, the stack pointer (R23). -/
  sp : Byte
  /-- PC (R24). -/
  pc : Addr
  /-- C, bit 0 of P (R29). -/
  flagC : Bool
  /-- Z, bit 1 of P (R30). -/
  flagZ : Bool
  /-- I, bit 2 of P (R31). -/
  flagI : Bool
  /-- D, bit 3 of P (R32). -/
  flagD : Bool
  /-- V, bit 6 of P (R33). -/
  flagV : Bool
  /-- N, bit 7 of P (R34). -/
  flagN : Bool
  /-- `nmi_pending`, the NMI latch (R35). -/
  nmiPending : Bool
  /-- `halted`, the JAM state (R37). -/
  halted : Bool
  /-- `irq_line`, the level of the IRQ input at the start of the next step (R36): the platform's, read only. -/
  irqLine : Bool
  /-- The plain memory behind the bus (R50, R63). -/
  mem : Memory
  /-- The addresses that are not plain memory (R51, R60): the platform's, read only. -/
  devices : List DeviceWindow
  /-- How many bus reads have been answered by a device window: the index of the next free value (the model's
  own field, notes/assumptions/2). -/
  draws : Nat
  /-- The named parameters of R6, read only. -/
  params : Params
  /-- Output: the cycle count that the last step to return one, or reset, returned (R350, R340). A refused step
  returns none. -/
  cycles : Nat
  /-- Output: the ordered bus trace of the last step, or reset (R9, R13, R341). -/
  trace : List BusEntry
  deriving DecidableEq, Repr

/-- The reasons a step can stop with a fault. -/
inductive Fault where
  /-- The source's "runtime invariant violation" class (R300, U12). `step` raises it where its decoder finds
  no instruction in the three bytes at PC, which never happens: "unreachable in this block". Safe. -/
  | internalConsistency
  deriving DecidableEq, Repr

/-- The reasons a step has no meaning: `Refused(reason)` of R10, each with what the spec says the refused step leaves.
The outcome is the refusal mark: no step follows one (D22), no memory was written, and no cycle count is
returned (R350). -/
inductive Refusal where
  /-- Raised by `exec` for an instruction whose meaning is not written yet; no arm raises it. Safe. -/
  | notModelled (mnemonic : String)
  /-- `UnimplementedOpcode op` (R260): raised by every unofficial opcode outside `P_UNOFFICIAL`. `left` is the state
  as the opcode fetch left it, the fetch its one trace entry. Safe. -/
  | unimplementedOpcode (op : Byte) (left : State)
  /-- `UnstableOpcode op` (R284): raised by SHA, SHX, SHY and TAS when the indexed address crosses a page and
  `P_SH_CROSS = Refuse`. `trace` is the reads performed before refusing. R10 specifies no register value after it;
  `sp` is the one a rule gives, the S that TAS has written (R280). Safe. -/
  | unstableOpcode (op : Byte) (trace : List BusEntry) (sp : Option Byte)
  deriving DecidableEq, Repr

/-- What a meaning answers. -/
abbrev Result := Host.Outcome State Fault Refusal

/-- The machine right after its power-on `reset()` (R39, R340, R341): PC from the reset vector of an empty
memory, S = $FD (D13), I = 1, the latches clear, and A, X, Y, C, Z, D, V, N as `P_POWERON` gives them. It is what
`State.resetSequence` makes of `State.powerOn`, written out. -/
def State.reset : State where
  a := Config.powerOn.a
  x := Config.powerOn.x
  y := Config.powerOn.y
  sp := 0xFD
  pc := word Config.blankByte Config.blankByte
  flagC := Config.powerOn.c
  flagZ := Config.powerOn.z
  flagI := true
  flagD := Config.powerOn.d
  flagV := Config.powerOn.v
  flagN := Config.powerOn.n
  nmiPending := false
  halted := false
  irqLine := false
  mem := []
  devices := []
  draws := 0
  params := Config.params
  cycles := 7
  trace := [⟨.read, 0xFFFC, Config.blankByte⟩, ⟨.read, 0xFFFD, Config.blankByte⟩]

end Sys2Proof.Machine
end

