-- ==== Sys2Proof/Machine/Flags.lean ====
section
/-! DEFINITION. Every flag computation of the spec: `SetNZ` (R8), `PackP` and `UnpackP` (R27, R28), `AddCore`
(R160), `Compare` (R166) and the one-bit shifts and rotates with their carries (R190 to R193). None of them
reads D (R178). -/

namespace Sys2Proof.Machine

/-- `SetNZ(v)` (R8, R30, R34). -/
def State.setNZ (v : Byte) (s : State) : State :=
  { s with flagZ := v == 0, flagN := v.msb }

/-- `A <- v; SetNZ(A)`. -/
def State.loadA (v : Byte) (s : State) : State := { s with a := v }.setNZ v

/-- `X <- v; SetNZ(X)`. -/
def State.loadX (v : Byte) (s : State) : State := { s with x := v }.setNZ v

/-- `Y <- v; SetNZ(Y)`. -/
def State.loadY (v : Byte) (s : State) : State := { s with y := v }.setNZ v

/-- `PackP(b)` (R27): the status byte as it is pushed, U = 1 and B = b (R26). -/
def State.packP (b : Bool) (s : State) : Byte :=
  (bit s.flagN <<< 7) ||| (bit s.flagV <<< 6) ||| (1 <<< 5) ||| (bit b <<< 4) |||
    (bit s.flagD <<< 3) ||| (bit s.flagI <<< 2) ||| (bit s.flagZ <<< 1) ||| bit s.flagC

/-- `UnpackP(v)` (R28): bits 5 and 4 of the pulled byte are discarded. -/
def State.unpackP (v : Byte) (s : State) : State :=
  { s with
    flagN := v.getLsbD 7
    flagV := v.getLsbD 6
    flagD := v.getLsbD 3
    flagI := v.getLsbD 2
    flagZ := v.getLsbD 1
    flagC := v.getLsbD 0 }

/-- The 9-bit sum of R160, 0 to 511. -/
def sum9 (a m : Byte) (c : Bool) : BitVec 9 :=
  a.setWidth 9 + m.setWidth 9 + (bit c).setWidth 9

/-- `AddCore(a, m, c)` (R160). -/
def State.addCore (a m : Byte) (c : Bool) (s : State) : State :=
  let r : Byte := (sum9 a m c).setWidth 8
  { s with flagC := (sum9 a m c).getLsbD 8, flagV := ((a ^^^ r) &&& (m ^^^ r)).msb }.loadA r

/-- `Compare(reg, m)` (R166): V and the register are left alone. -/
def State.compare (reg m : Byte) (s : State) : State :=
  { s with flagC := decide (m ≤ reg), flagZ := reg == m, flagN := (reg - m).msb }

/-- A shift's result and its carry out. -/
abbrev Shifted := Byte × Bool

/-- `f` and `C` of ASL (R190). -/
def shiftAsl (v : Byte) : Shifted := (v <<< 1, v.getLsbD 7)

/-- `f` and `C` of LSR (R191). -/
def shiftLsr (v : Byte) : Shifted := (v >>> 1, v.getLsbD 0)

/-- `f` and `C` of ROL (R192), from the carry before the instruction. -/
def shiftRol (c : Bool) (v : Byte) : Shifted := ((v <<< 1) ||| bit c, v.getLsbD 7)

/-- `f` and `C` of ROR (R193), from the carry before the instruction. -/
def shiftRor (c : Bool) (v : Byte) : Shifted := ((bit c <<< 7) ||| (v >>> 1), v.getLsbD 0)

/-- `A <- v`, no flag. -/
def State.setA (v : Byte) (s : State) : State := { s with a := v }

/-- `S <- v` where there is a `v`. -/
def State.setS (v : Option Byte) (s : State) : State := { s with sp := v.getD s.sp }

/-- `I <- b`. -/
def State.setI (b : Bool) (s : State) : State := { s with flagI := b }

/-- `C <- carry`. -/
def State.setC (c : Bool) (s : State) : State := { s with flagC := c }

end Sys2Proof.Machine
end

