-- ==== Sys2Proof/Machine/Ops.lean ====
section
/-! DEFINITION. The named operations over memory, the bus, PC, the stack and the interrupt inputs. Every bus
access of the machine goes through `State.busRead`, `State.busWrite` or `State.fetched`, so every one of
them stands in the step's trace, in order (R9, R61). -/

namespace Sys2Proof.Machine

/-! ### Plain memory -/

/-- The canonical form from the address `lo` up: strictly rising addresses, each below 65536, no blank byte. -/
def Memory.wfFrom : Nat → Memory → Bool
  | _, [] => true
  | lo, (k, v) :: m => decide (lo ≤ k) && decide (k < 65536) && v != Config.blankByte && Memory.wfFrom (k + 1) m

/-- The canonical form of a memory: two memories that have it and read alike are equal. -/
def Memory.wf (m : Memory) : Bool := Memory.wfFrom 0 m

/-- The byte at an address of plain memory. -/
def Memory.read : Memory → Nat → Byte
  | [], _ => Config.blankByte
  | (k, v) :: m, a => if k = a then v else Memory.read m a

/-- Plain memory with `v` at `a`: writing the blank byte takes the cell out. -/
def Memory.write : Memory → Nat → Byte → Memory
  | [], a, v => if v = Config.blankByte then [] else [(a, v)]
  | (k, w) :: m, a, v =>
    if k < a then (k, w) :: Memory.write m a v
    else if k = a then (if v = Config.blankByte then m else (a, v) :: m)
    else if v = Config.blankByte then (k, w) :: m else (a, v) :: (k, w) :: m

/-! ### The bus (R9, R50, R51) -/

/-- The address is in this window. -/
def DeviceWindow.holds (w : DeviceWindow) (a : Addr) : Bool := decide (w.first ≤ a) && decide (a ≤ w.last)

/-- The address is not plain memory on this platform (R60, D19). -/
def State.isDevice (s : State) (a : Addr) : Bool := s.devices.any (fun w => w.holds a)

/-- The byte the bus would answer to a read of `a` now: plain memory's byte, or the next free value (R51). -/
def State.peek (s : State) (a : Addr) : Byte :=
  if s.isDevice a then Config.busByte s.draws a else s.mem.read a.toNat

/-- The state after the bus has answered `v` to a read of `a`: the trace entry of R9, and a free value used up
where the address is not plain memory. -/
def State.logRead (a : Addr) (v : Byte) (s : State) : State :=
  { s with
    trace := s.trace ++ [⟨.read, a, v⟩]
    draws := if s.isDevice a then s.draws + 1 else s.draws }

/-- `MemRead(a)` (R9). It never faults (R51). -/
def State.busRead (a : Addr) (s : State) : Byte × State := (s.peek a, s.logRead a (s.peek a))

/-- `MemWrite(a, v)` (R9). It never faults (R51); plain memory changes only where the address is plain (U15). -/
def State.busWrite (a : Addr) (v : Byte) (s : State) : State :=
  { s with
    mem := if s.isDevice a then s.mem else s.mem.write a.toNat v
    trace := s.trace ++ [⟨.write, a, v⟩] }

/-- `DummyRead(a)` (R9): performed only when `P_BUS_TRACE = Full`. -/
def State.dummyRead (a : Addr) (s : State) : State :=
  match s.params.busTrace with
  | .full => (s.busRead a).2
  | .architectural => s

/-- `DummyWrite(a, v)` (R9): performed only when `P_BUS_TRACE = Full`. -/
def State.dummyWrite (a : Addr) (v : Byte) (s : State) : State :=
  match s.params.busTrace with
  | .full => s.busWrite a v
  | .architectural => s

/-! ### Fetching -/

/-- `PC <- a`. -/
def State.goto (a : Addr) (s : State) : State := { s with pc := a }

/-- `FetchByte()` (R9) of the byte `v`: the read of PC is traced and PC moves on, wrapping at $FFFF (R24). -/
def State.fetched (v : Byte) (s : State) : State :=
  { s.logRead s.pc v with pc := s.pc + 1 }

/-- `FetchByte()` (R9): the byte at PC. -/
def State.fetchByte (s : State) : Byte × State := (s.peek s.pc, s.fetched (s.peek s.pc))

/-- The three bytes at PC, PC + 1 and PC + 2 as three fetches in a row would read them: the longest
instruction (R81). Nothing is performed: `exec` performs the fetches its instruction makes. -/
def State.fetchWindow (s : State) : List Byte :=
  let f0 := s.fetchByte
  let f1 := f0.2.fetchByte
  [f0.1, f1.1, f1.2.fetchByte.1]

/-- The beginning of a step: an empty trace, and `cycles <- n` (R10). -/
def State.beginStep (n : Nat) (s : State) : State := { s with trace := [], cycles := n }

/-- The beginning of every step that executes an instruction (R100): `op <- FetchByte(); cycles <- base`. -/
def State.beginInstr (op : Byte) (base : Nat) (s : State) : State :=
  (s.beginStep base).fetched op

/-- `cycles <- cycles + n` (R10). -/
def State.addCycles (n : Nat) (s : State) : State := { s with cycles := s.cycles + n }

/-! ### The stack (R57) -/

/-- The address `word($01, S)` of the next free stack byte (R23). -/
def State.stackAddr (s : State) : Addr := word 0x01 s.sp

/-- `Push(v)` (R58). -/
def State.push (v : Byte) (s : State) : State :=
  { s.busWrite s.stackAddr v with sp := s.sp - 1 }

/-- `Pull()` (R59). -/
def State.pull (s : State) : Byte × State :=
  let s1 := { s with sp := s.sp + 1 }
  s1.busRead s1.stackAddr

/-! ### Interrupt inputs, entry and return -/

/-- `nmi_edge()` (R306): called by the platform between steps; edges merge (R35). -/
def State.nmiEdge (s : State) : State := { s with nmiPending := true }

/-- The platform sets the level of the IRQ input between steps (R36, R307). -/
def State.setIrqLine (level : Bool) (s : State) : State := { s with irqLine := level }

/-- The NMI vector's low byte (R56). -/
def nmiVector : Addr := 0xFFFA

/-- The reset vector's low byte (R56). -/
def resetVector : Addr := 0xFFFC

/-- The IRQ and BRK vector's low byte (R56). -/
def irqVector : Addr := 0xFFFE

/-- `lo <- MemRead(vec); hi <- MemRead(vec + 1); PC <- word(hi, lo)`: the end of every entry (R305, R214, R340). -/
def State.jumpVector (vec : Addr) (s : State) : State :=
  let lo := s.busRead vec
  let hi := lo.2.busRead (vec + 1)
  hi.2.goto (word hi.1 lo.1)

/-- `Push(hi(PC)); Push(lo(PC))` (R52: the high byte first). -/
def State.pushPc (s : State) : State := (s.push (hiByte s.pc)).push (loByte s.pc)

/-- Taking an exception, shared by BRK (`b` = 1, R214) and by NMI and IRQ service (`b` = 0, R305): PC and the
status byte go to the stack, I becomes 1, D stays, and PC is loaded from the vector. -/
def State.enterHandler (b : Bool) (vec : Addr) (s : State) : State :=
  let s1 := s.pushPc
  let s2 := s1.push (s1.packP b)
  (s2.setI true).jumpVector vec

/-- `InterruptService(vec)` (R305): a step of its own, 7 cycles. -/
def State.interruptService (vec : Addr) (s : State) : State :=
  let s0 := s.beginStep 7
  ((s0.dummyRead s0.pc).dummyRead s0.pc).enterHandler false vec

/-- NMI service (R303). -/
def State.nmiService (s : State) : State := { s with nmiPending := false }.interruptService nmiVector

/-- IRQ service (R304). -/
def State.irqService (s : State) : State := s.interruptService irqVector

/-- `lo <- Pull(); hi <- Pull(); PC <- word(hi, lo)`: the end of RTS and RTI (R212, R213). -/
def State.pullPc (s : State) : State :=
  let lo := s.pull
  let hi := lo.2.pull
  hi.2.goto (word hi.1 lo.1)

/-- The return from an exception (R310, R213): flags first, then PC with no adjustment. -/
def State.leaveHandler (s : State) : State :=
  let p := s.pull
  (p.2.unpackP p.1).pullPc

/-- A step of a halted core (R320): one cycle, no bus access, no change. -/
def State.haltedStep (s : State) : State := s.beginStep 1

/-! ### Reset (R340, R341) -/

/-- `reset()`: a call of its own, not a step. A, X, Y, C, Z, D, V and N keep their values. -/
def State.resetSequence (s : State) : State :=
  { s with
    halted := false
    nmiPending := false
    sp := 0xFD
    flagI := true
    trace := []
    cycles := 7 }.jumpVector resetVector

/-- The machine at power-on, before its first `reset()` (R342): the registers `P_POWERON` gives; what stands in
S, PC, I and the two latches is overwritten by `reset()`. -/
def State.powerOn : State where
  a := Config.powerOn.a
  x := Config.powerOn.x
  y := Config.powerOn.y
  sp := 0x00
  pc := 0x0000
  flagC := Config.powerOn.c
  flagZ := Config.powerOn.z
  flagI := false
  flagD := Config.powerOn.d
  flagV := Config.powerOn.v
  flagN := Config.powerOn.n
  nmiPending := false
  halted := false
  irqLine := false
  mem := []
  devices := []
  draws := 0
  params := Config.params
  cycles := 0
  trace := []

/-! ### Admission of unofficial opcodes -/

/-- The opcode is in `P_UNOFFICIAL` (R260). -/
def State.admits (s : State) (op : Byte) : Bool := s.params.unofficial.contains op

/-- What an opcode refused at decode leaves (R260, R10): its opcode fetch, "no further access and no state change
beyond that fetch". -/
def State.fetchedOnly (op : Byte) (s : State) : State := { s with trace := [] }.fetched op

/-- R260: an unofficial opcode outside `P_UNOFFICIAL` ends the step `Refused(UnimplementedOpcode op)`;
otherwise it executes by its rule. -/
def admitted (op : Byte) (s : State) (meaning : Result) : Result :=
  if s.admits op then meaning else .refused (.unimplementedOpcode op (s.fetchedOnly op))

end Sys2Proof.Machine
end

