-- ==== Sys2Proof/Machine/Operands.lean ====
section
/-! DEFINITION. Every operand form (spec/40_addressing_modes.md): the address cycles of the modes (R101 to
R110), the final accesses of the three access classes (R113 to R115) and the instruction shapes built from
them, one per class. A meaning is one of these shapes applied to what its own rule says. -/

namespace Sys2Proof.Machine

/-- An operand in memory: a mode that has an effective address, with its operand bytes (R104 to R107, R109,
R110). -/
inductive Place where
  | zp (n : Byte)
  | zpX (n : Byte)
  | zpY (n : Byte)
  | abs (lo hi : Byte)
  | absX (lo hi : Byte)
  | absY (lo hi : Byte)
  | indX (n : Byte)
  | indY (n : Byte)
  deriving DecidableEq, Repr

/-- What a class-read instruction takes its `M` from: the immediate byte (R103) or memory. -/
inductive Source where
  | imm (n : Byte)
  | mem (p : Place)
  deriving DecidableEq, Repr

/-- What the address cycles leave: the effective address, the address before indexing, and the state after
their accesses. -/
structure Target where
  ea : Addr
  base : Addr
  st : State
  deriving DecidableEq, Repr

/-- `crossed` (R107, R110, R112): the indexed address is on another page than its base. -/
def Target.crossed (t : Target) : Bool := hiByte t.ea != hiByte t.base

/-- R104. -/
def zeroPage (n : Byte) (s : State) : Target := ⟨zext16 n, zext16 n, s.fetched n⟩

/-- R105, R54: the index is added inside the zero page. -/
def zeroPageIndexed (idx n : Byte) (s : State) : Target :=
  ⟨zext16 (n + idx), zext16 (n + idx), (s.fetched n).dummyRead (zext16 n)⟩

/-- R106. -/
def absolute (lo hi : Byte) (s : State) : Target :=
  ⟨word hi lo, word hi lo, (s.fetched lo).fetched hi⟩

/-- The indexing cycle shared by R107 and R110: `partial` is the address before the carry into the high byte. A
class-read access dummy-reads it, and takes one cycle more, only on a crossing; the others always read it
and take no more. -/
def indexed (cls : Access) (idx : Byte) (base : Addr) (s : State) : Target :=
  let ea := base + zext16 idx
  let part := word (hiByte base) (loByte base + idx)
  match cls with
  | .read => ⟨ea, base, if hiByte ea != hiByte base then (s.dummyRead part).addCycles 1 else s⟩
  | .write | .rmw | .none => ⟨ea, base, s.dummyRead part⟩

/-- R107. -/
def absoluteIndexed (cls : Access) (idx lo hi : Byte) (s : State) : Target :=
  indexed cls idx (word hi lo) ((s.fetched lo).fetched hi)

/-- The two reads of a zero-page pointer, which wraps inside page $00 (R54, R109, R110). -/
def zeroPagePointer (p : Byte) (s : State) : Addr × State :=
  let lo := s.busRead (zext16 p)
  let hi := lo.2.busRead (zext16 (p + 1))
  (word hi.1 lo.1, hi.2)

/-- R109. -/
def indexedIndirect (n : Byte) (s : State) : Target :=
  let p := zeroPagePointer (n + s.x) ((s.fetched n).dummyRead (zext16 n))
  ⟨p.1, p.1, p.2⟩

/-- R110. -/
def indirectIndexed (cls : Access) (n : Byte) (s : State) : Target :=
  let p := zeroPagePointer n (s.fetched n)
  indexed cls s.y p.1 p.2

/-- The address cycles of an operand in memory, for an access class (R100). -/
def address (cls : Access) (p : Place) (s : State) : Target :=
  match p with
  | .zp n => zeroPage n s
  | .zpX n => zeroPageIndexed s.x n s
  | .zpY n => zeroPageIndexed s.y n s
  | .abs lo hi => absolute lo hi s
  | .absX lo hi => absoluteIndexed cls s.x lo hi s
  | .absY lo hi => absoluteIndexed cls s.y lo hi s
  | .indX n => indexedIndirect n s
  | .indY n => indirectIndexed cls n s

/-- `M` of a class-read instruction, and the state after reading it (R103, R113). -/
def readSource (src : Source) (s : State) : Byte × State :=
  match src with
  | .imm n => (n, s.fetched n)
  | .mem p => let t := address .read p s; t.st.busRead t.ea

/-! ### Instruction shapes -/

/-- Class read (R113): `f M` is the instruction's effect. -/
def readInstr (op : Byte) (base : Nat) (src : Source) (f : Byte → State → State) (s : State) : Result :=
  let m := readSource src (s.beginInstr op base)
  .next (f m.1 m.2)

/-- Class write (R114): `v` is the value the instruction stores. -/
def storeInstr (op : Byte) (base : Nat) (p : Place) (v : State → Byte) (s : State) : Result :=
  let t := address .write p (s.beginInstr op base)
  .next (t.st.busWrite t.ea (v t.st))

/-- Class read-modify-write (R115): `f M` gives the byte written back and the instruction's other effects. -/
def rmwInstr (op : Byte) (base : Nat) (p : Place) (f : Byte → State → Byte × State) (s : State) : Result :=
  let t := address .rmw p (s.beginInstr op base)
  let m := t.st.busRead t.ea
  let r := f m.1 (m.2.dummyWrite t.ea m.1)
  .next (r.2.busWrite t.ea r.1)

/-- Accumulator mode (R102). -/
def accInstr (op : Byte) (base : Nat) (f : Byte → State → Byte × State) (s : State) : Result :=
  let s0 := s.beginInstr op base
  let s1 := s0.dummyRead s0.pc
  let r := f s1.a s1
  .next (r.2.setA r.1)

/-- Implied mode (R101): the byte after the opcode is read and discarded, then `f`. -/
def impliedInstr (op : Byte) (base : Nat) (f : State → State) (s : State) : Result :=
  let s0 := s.beginInstr op base
  .next (f (s0.dummyRead s0.pc))

/-- A conditional branch (R215). -/
def branchInstr (op : Byte) (base : Nat) (cond : State → Bool) (n : Byte) (s : State) : Result :=
  let s1 := (s.beginInstr op base).fetched n
  if cond s1 then
    let s2 := s1.dummyRead s1.pc
    let target := s1.pc + sext16 n
    let s3 :=
      if hiByte target != hiByte s1.pc then
        (s2.dummyRead (word (hiByte s1.pc) (loByte target))).addCycles 2
      else s2.addCycles 1
    .next (s3.goto target)
  else .next s1

/-- SHA, SHX, SHY and TAS (R284). `newS` is what the instruction writes to S before the store, also when the store is
refused (TAS, R280), `v` the value AND-ed with the high byte of the base address plus one. -/
def unstableStore (op : Byte) (base : Nat) (p : Place) (newS : State → Option Byte) (v : State → Byte) (s : State) :
    Result :=
  let t := address .write p (s.beginInstr op base)
  let s1 := t.st.setS (newS t.st)
  let val := v t.st &&& (hiByte t.base + 1)
  if t.crossed then
    match s.params.shCross with
    | .refuse => .refused (.unstableOpcode op t.st.trace (newS t.st))
    | .formula => .next (s1.busWrite (word val (loByte t.ea)) val)
  else .next (s1.busWrite t.ea val)

/-! ### The operand of an instruction, by its row of the table -/

/-- The memory operand that a mode makes of the operand bytes (R84). -/
def modePlace : Mode → Byte → Byte → Option Place
  | .zp, n, _ => some (.zp n)
  | .zpX, n, _ => some (.zpX n)
  | .zpY, n, _ => some (.zpY n)
  | .abs, lo, hi => some (.abs lo hi)
  | .absX, lo, hi => some (.absX lo hi)
  | .absY, lo, hi => some (.absY lo hi)
  | .indX, n, _ => some (.indX n)
  | .indY, n, _ => some (.indY n)
  | .imp, _, _ | .acc, _, _ | .imm, _, _ | .ind, _, _ | .rel, _, _ => none

/-- The memory operand of an instruction: none for the modes that have no effective address. -/
def placeOf (i : Instr) : Option Place := modePlace i.row.mode i.operandBytes.1 i.operandBytes.2

/-- What an instruction takes `M` from: the byte of immediate mode, or its memory operand. -/
def sourceOf (i : Instr) : Option Source :=
  match i.row.mode with
  | .imm => some (.imm i.operandBytes.1)
  | _ => (placeOf i).map .mem

end Sys2Proof.Machine
end

