-- ==== Sys2Proof/Machine/Arith.lean ====
section
/-! DEFINITION. Arithmetic, logic, compare and increment (spec/42_arithmetic_logic.md). -/

namespace Sys2Proof.Machine

/-! ### ADC (R161) -/

/-- `AddCore(A, M, C)` (R161). -/
def effAdc (m : Byte) (s : State) : State := s.addCore s.a m s.flagC

/-- $61 ADC (n,X). -/
def execAdcIndX (n : Byte) (s : State) : Result :=
  readInstr 0x61 6 (.mem (.indX n)) effAdc s

/-- $65 ADC n. -/
def execAdcZp (n : Byte) (s : State) : Result :=
  readInstr 0x65 3 (.mem (.zp n)) effAdc s

/-- $69 ADC #n. -/
def execAdcImm (n : Byte) (s : State) : Result :=
  readInstr 0x69 2 (.imm n) effAdc s

/-- $6D ADC hilo. -/
def execAdcAbs (lo hi : Byte) (s : State) : Result :=
  readInstr 0x6D 4 (.mem (.abs lo hi)) effAdc s

/-- $71 ADC (n),Y. -/
def execAdcIndY (n : Byte) (s : State) : Result :=
  readInstr 0x71 5 (.mem (.indY n)) effAdc s

/-- $75 ADC n,X. -/
def execAdcZpX (n : Byte) (s : State) : Result :=
  readInstr 0x75 4 (.mem (.zpX n)) effAdc s

/-- $79 ADC hilo,Y. -/
def execAdcAbsY (lo hi : Byte) (s : State) : Result :=
  readInstr 0x79 4 (.mem (.absY lo hi)) effAdc s

/-- $7D ADC hilo,X. -/
def execAdcAbsX (lo hi : Byte) (s : State) : Result :=
  readInstr 0x7D 4 (.mem (.absX lo hi)) effAdc s

/-! ### SBC (R162) -/

/-- `AddCore(A, M ^ $FF, C)` (R162). -/
def effSbc (m : Byte) (s : State) : State := s.addCore s.a (m ^^^ 0xFF) s.flagC

/-- $E1 SBC (n,X). -/
def execSbcIndX (n : Byte) (s : State) : Result :=
  readInstr 0xE1 6 (.mem (.indX n)) effSbc s

/-- $E5 SBC n. -/
def execSbcZp (n : Byte) (s : State) : Result :=
  readInstr 0xE5 3 (.mem (.zp n)) effSbc s

/-- $E9 SBC #n. -/
def execSbcImm (n : Byte) (s : State) : Result :=
  readInstr 0xE9 2 (.imm n) effSbc s

/-- $ED SBC hilo. -/
def execSbcAbs (lo hi : Byte) (s : State) : Result :=
  readInstr 0xED 4 (.mem (.abs lo hi)) effSbc s

/-- $F1 SBC (n),Y. -/
def execSbcIndY (n : Byte) (s : State) : Result :=
  readInstr 0xF1 5 (.mem (.indY n)) effSbc s

/-- $F5 SBC n,X. -/
def execSbcZpX (n : Byte) (s : State) : Result :=
  readInstr 0xF5 4 (.mem (.zpX n)) effSbc s

/-- $F9 SBC hilo,Y. -/
def execSbcAbsY (lo hi : Byte) (s : State) : Result :=
  readInstr 0xF9 4 (.mem (.absY lo hi)) effSbc s

/-- $FD SBC hilo,X. -/
def execSbcAbsX (lo hi : Byte) (s : State) : Result :=
  readInstr 0xFD 4 (.mem (.absX lo hi)) effSbc s

/-! ### AND (R163) -/

/-- `A <- A & M; SetNZ(A)` (R163). -/
def effAnd (m : Byte) (s : State) : State := s.loadA (s.a &&& m)

/-- $21 AND (n,X). -/
def execAndIndX (n : Byte) (s : State) : Result :=
  readInstr 0x21 6 (.mem (.indX n)) effAnd s

/-- $25 AND n. -/
def execAndZp (n : Byte) (s : State) : Result :=
  readInstr 0x25 3 (.mem (.zp n)) effAnd s

/-- $29 AND #n. -/
def execAndImm (n : Byte) (s : State) : Result :=
  readInstr 0x29 2 (.imm n) effAnd s

/-- $2D AND hilo. -/
def execAndAbs (lo hi : Byte) (s : State) : Result :=
  readInstr 0x2D 4 (.mem (.abs lo hi)) effAnd s

/-- $31 AND (n),Y. -/
def execAndIndY (n : Byte) (s : State) : Result :=
  readInstr 0x31 5 (.mem (.indY n)) effAnd s

/-- $35 AND n,X. -/
def execAndZpX (n : Byte) (s : State) : Result :=
  readInstr 0x35 4 (.mem (.zpX n)) effAnd s

/-- $39 AND hilo,Y. -/
def execAndAbsY (lo hi : Byte) (s : State) : Result :=
  readInstr 0x39 4 (.mem (.absY lo hi)) effAnd s

/-- $3D AND hilo,X. -/
def execAndAbsX (lo hi : Byte) (s : State) : Result :=
  readInstr 0x3D 4 (.mem (.absX lo hi)) effAnd s

/-! ### ORA (R164) -/

/-- `A <- A | M; SetNZ(A)` (R164). -/
def effOra (m : Byte) (s : State) : State := s.loadA (s.a ||| m)

/-- $01 ORA (n,X). -/
def execOraIndX (n : Byte) (s : State) : Result :=
  readInstr 0x01 6 (.mem (.indX n)) effOra s

/-- $05 ORA n. -/
def execOraZp (n : Byte) (s : State) : Result :=
  readInstr 0x05 3 (.mem (.zp n)) effOra s

/-- $09 ORA #n. -/
def execOraImm (n : Byte) (s : State) : Result :=
  readInstr 0x09 2 (.imm n) effOra s

/-- $0D ORA hilo. -/
def execOraAbs (lo hi : Byte) (s : State) : Result :=
  readInstr 0x0D 4 (.mem (.abs lo hi)) effOra s

/-- $11 ORA (n),Y. -/
def execOraIndY (n : Byte) (s : State) : Result :=
  readInstr 0x11 5 (.mem (.indY n)) effOra s

/-- $15 ORA n,X. -/
def execOraZpX (n : Byte) (s : State) : Result :=
  readInstr 0x15 4 (.mem (.zpX n)) effOra s

/-- $19 ORA hilo,Y. -/
def execOraAbsY (lo hi : Byte) (s : State) : Result :=
  readInstr 0x19 4 (.mem (.absY lo hi)) effOra s

/-- $1D ORA hilo,X. -/
def execOraAbsX (lo hi : Byte) (s : State) : Result :=
  readInstr 0x1D 4 (.mem (.absX lo hi)) effOra s

/-! ### EOR (R165) -/

/-- `A <- A ^ M; SetNZ(A)` (R165). -/
def effEor (m : Byte) (s : State) : State := s.loadA (s.a ^^^ m)

/-- $41 EOR (n,X). -/
def execEorIndX (n : Byte) (s : State) : Result :=
  readInstr 0x41 6 (.mem (.indX n)) effEor s

/-- $45 EOR n. -/
def execEorZp (n : Byte) (s : State) : Result :=
  readInstr 0x45 3 (.mem (.zp n)) effEor s

/-- $49 EOR #n. -/
def execEorImm (n : Byte) (s : State) : Result :=
  readInstr 0x49 2 (.imm n) effEor s

/-- $4D EOR hilo. -/
def execEorAbs (lo hi : Byte) (s : State) : Result :=
  readInstr 0x4D 4 (.mem (.abs lo hi)) effEor s

/-- $51 EOR (n),Y. -/
def execEorIndY (n : Byte) (s : State) : Result :=
  readInstr 0x51 5 (.mem (.indY n)) effEor s

/-- $55 EOR n,X. -/
def execEorZpX (n : Byte) (s : State) : Result :=
  readInstr 0x55 4 (.mem (.zpX n)) effEor s

/-- $59 EOR hilo,Y. -/
def execEorAbsY (lo hi : Byte) (s : State) : Result :=
  readInstr 0x59 4 (.mem (.absY lo hi)) effEor s

/-- $5D EOR hilo,X. -/
def execEorAbsX (lo hi : Byte) (s : State) : Result :=
  readInstr 0x5D 4 (.mem (.absX lo hi)) effEor s

/-! ### CMP (R167) -/

/-- `Compare(A, M)` (R167). -/
def effCmp (m : Byte) (s : State) : State := s.compare s.a m

/-- $C1 CMP (n,X). -/
def execCmpIndX (n : Byte) (s : State) : Result :=
  readInstr 0xC1 6 (.mem (.indX n)) effCmp s

/-- $C5 CMP n. -/
def execCmpZp (n : Byte) (s : State) : Result :=
  readInstr 0xC5 3 (.mem (.zp n)) effCmp s

/-- $C9 CMP #n. -/
def execCmpImm (n : Byte) (s : State) : Result :=
  readInstr 0xC9 2 (.imm n) effCmp s

/-- $CD CMP hilo. -/
def execCmpAbs (lo hi : Byte) (s : State) : Result :=
  readInstr 0xCD 4 (.mem (.abs lo hi)) effCmp s

/-- $D1 CMP (n),Y. -/
def execCmpIndY (n : Byte) (s : State) : Result :=
  readInstr 0xD1 5 (.mem (.indY n)) effCmp s

/-- $D5 CMP n,X. -/
def execCmpZpX (n : Byte) (s : State) : Result :=
  readInstr 0xD5 4 (.mem (.zpX n)) effCmp s

/-- $D9 CMP hilo,Y. -/
def execCmpAbsY (lo hi : Byte) (s : State) : Result :=
  readInstr 0xD9 4 (.mem (.absY lo hi)) effCmp s

/-- $DD CMP hilo,X. -/
def execCmpAbsX (lo hi : Byte) (s : State) : Result :=
  readInstr 0xDD 4 (.mem (.absX lo hi)) effCmp s

/-! ### CPX (R168) -/

/-- `Compare(X, M)` (R168). -/
def effCpx (m : Byte) (s : State) : State := s.compare s.x m

/-- $E0 CPX #n. -/
def execCpxImm (n : Byte) (s : State) : Result :=
  readInstr 0xE0 2 (.imm n) effCpx s

/-- $E4 CPX n. -/
def execCpxZp (n : Byte) (s : State) : Result :=
  readInstr 0xE4 3 (.mem (.zp n)) effCpx s

/-- $EC CPX hilo. -/
def execCpxAbs (lo hi : Byte) (s : State) : Result :=
  readInstr 0xEC 4 (.mem (.abs lo hi)) effCpx s

/-! ### CPY (R169) -/

/-- `Compare(Y, M)` (R169). -/
def effCpy (m : Byte) (s : State) : State := s.compare s.y m

/-- $C0 CPY #n. -/
def execCpyImm (n : Byte) (s : State) : Result :=
  readInstr 0xC0 2 (.imm n) effCpy s

/-- $C4 CPY n. -/
def execCpyZp (n : Byte) (s : State) : Result :=
  readInstr 0xC4 3 (.mem (.zp n)) effCpy s

/-- $CC CPY hilo. -/
def execCpyAbs (lo hi : Byte) (s : State) : Result :=
  readInstr 0xCC 4 (.mem (.abs lo hi)) effCpy s

/-! ### BIT (R170) -/

/-- Z from `A & M`, N and V from bits 7 and 6 of `M`; A is not written (R170). -/
def effBit (m : Byte) (s : State) : State :=
  { s with flagZ := (s.a &&& m) == 0, flagN := m.getLsbD 7, flagV := m.getLsbD 6 }

/-- $24 BIT n. -/
def execBitZp (n : Byte) (s : State) : Result :=
  readInstr 0x24 3 (.mem (.zp n)) effBit s

/-- $2C BIT hilo. -/
def execBitAbs (lo hi : Byte) (s : State) : Result :=
  readInstr 0x2C 4 (.mem (.abs lo hi)) effBit s

/-! ### INC (R171) -/

/-- `f(M) = M + 1; SetNZ(f(M))` (R171). -/
def effInc (m : Byte) (s : State) : Byte × State := (m + 1, s.setNZ (m + 1))

/-- $E6 INC n. -/
def execIncZp (n : Byte) (s : State) : Result :=
  rmwInstr 0xE6 5 (.zp n) effInc s

/-- $EE INC hilo. -/
def execIncAbs (lo hi : Byte) (s : State) : Result :=
  rmwInstr 0xEE 6 (.abs lo hi) effInc s

/-- $F6 INC n,X. -/
def execIncZpX (n : Byte) (s : State) : Result :=
  rmwInstr 0xF6 6 (.zpX n) effInc s

/-- $FE INC hilo,X. -/
def execIncAbsX (lo hi : Byte) (s : State) : Result :=
  rmwInstr 0xFE 7 (.absX lo hi) effInc s

/-! ### DEC (R172) -/

/-- `f(M) = M - 1; SetNZ(f(M))` (R172). -/
def effDec (m : Byte) (s : State) : Byte × State := (m - 1, s.setNZ (m - 1))

/-- $C6 DEC n. -/
def execDecZp (n : Byte) (s : State) : Result :=
  rmwInstr 0xC6 5 (.zp n) effDec s

/-- $CE DEC hilo. -/
def execDecAbs (lo hi : Byte) (s : State) : Result :=
  rmwInstr 0xCE 6 (.abs lo hi) effDec s

/-- $D6 DEC n,X. -/
def execDecZpX (n : Byte) (s : State) : Result :=
  rmwInstr 0xD6 6 (.zpX n) effDec s

/-- $DE DEC hilo,X. -/
def execDecAbsX (lo hi : Byte) (s : State) : Result :=
  rmwInstr 0xDE 7 (.absX lo hi) effDec s

/-! ### INX (R173) -/

/-- `X <- X + 1; SetNZ(X)` (R173). -/
def effInx (s : State) : State := s.loadX (s.x + 1)

/-- $E8 INX. -/
def execInx (s : State) : Result :=
  impliedInstr 0xE8 2 effInx s

/-! ### INY (R174) -/

/-- `Y <- Y + 1; SetNZ(Y)` (R174). -/
def effIny (s : State) : State := s.loadY (s.y + 1)

/-- $C8 INY. -/
def execIny (s : State) : Result :=
  impliedInstr 0xC8 2 effIny s

/-! ### DEX (R175) -/

/-- `X <- X - 1; SetNZ(X)` (R175). -/
def effDex (s : State) : State := s.loadX (s.x - 1)

/-- $CA DEX. -/
def execDex (s : State) : Result :=
  impliedInstr 0xCA 2 effDex s

/-! ### DEY (R176) -/

/-- `Y <- Y - 1; SetNZ(Y)` (R176). -/
def effDey (s : State) : State := s.loadY (s.y - 1)

/-- $88 DEY. -/
def execDey (s : State) : Result :=
  impliedInstr 0x88 2 effDey s

end Sys2Proof.Machine
end

