-- ==== Sys2Proof/Machine/Control.lean ====
section
/-! DEFINITION. Jumps, calls, returns, BRK and branches (spec/45_control_transfer.md). -/

namespace Sys2Proof.Machine

/-! ### JMP (R210) -/

/-- JMP absolute (R210). -/
def jmpAbsolute (op : Byte) (base : Nat) (lo hi : Byte) (s : State) : Result :=
  .next ((((s.beginInstr op base).fetched lo).fetched hi).goto (word hi lo))

/-- JMP indirect (R210, R108): the pointer's high byte is read on the same page (R55). -/
def jmpIndirect (op : Byte) (base : Nat) (lo hi : Byte) (s : State) : Result :=
  let s1 := ((s.beginInstr op base).fetched lo).fetched hi
  let tlo := s1.busRead (word hi lo)
  let thi := tlo.2.busRead (word hi (lo + 1))
  .next (thi.2.goto (word thi.1 tlo.1))

/-- $4C JMP hilo. -/
def execJmpAbs (lo hi : Byte) (s : State) : Result :=
  jmpAbsolute 0x4C 3 lo hi s

/-- $6C JMP (hilo). -/
def execJmpInd (lo hi : Byte) (s : State) : Result :=
  jmpIndirect 0x6C 5 lo hi s

/-! ### JSR (R211) -/

/-- JSR (R211): the return address pushed is that of the last byte, and the high target byte is read after the
pushes, from wherever they left it. -/
def jsrInstr (op : Byte) (base : Nat) (lo : Byte) (s : State) : Result :=
  let s1 := (s.beginInstr op base).fetched lo
  let s2 := (s1.dummyRead s1.stackAddr).pushPc
  let hi := s2.busRead s2.pc
  .next (hi.2.goto (word hi.1 lo))

/-- $20 JSR hilo. -/
def execJsrAbs (lo _hi : Byte) (s : State) : Result :=
  jsrInstr 0x20 6 lo s

/-! ### RTS (R212) -/

/-- After the implied shape's dummy read (R212): the stack dummy read, the pulled PC, its dummy read, plus one. -/
def effRts (s : State) : State :=
  let s1 := (s.dummyRead s.stackAddr).pullPc
  (s1.dummyRead s1.pc).goto (s1.pc + 1)

/-- $60 RTS. -/
def execRts (s : State) : Result :=
  impliedInstr 0x60 6 effRts s

/-! ### RTI (R213) -/

/-- After the implied shape's dummy read (R213): the stack dummy read, then the return from exception. -/
def effRti (s : State) : State := (s.dummyRead s.stackAddr).leaveHandler

/-- $40 RTI. -/
def execRti (s : State) : Result :=
  impliedInstr 0x40 6 effRti s

/-! ### BRK (R214) -/

/-- BRK (R214, R311): the padding byte is read and skipped, then the entry is the interrupts' with B = 1. -/
def brkInstr (op : Byte) (base : Nat) (s : State) : Result :=
  let s0 := s.beginInstr op base
  .next (((s0.dummyRead s0.pc).goto (s0.pc + 1)).enterHandler true irqVector)

/-- $00 BRK. -/
def execBrk (_pad : Byte) (s : State) : Result :=
  brkInstr 0x00 7 s

/-! ### BCC (R216) -/

/-- C = 0 (R216). -/
def condBcc (s : State) : Bool := !s.flagC

/-- $90 BCC n. -/
def execBcc (n : Byte) (s : State) : Result :=
  branchInstr 0x90 2 condBcc n s

/-! ### BCS (R217) -/

/-- C = 1 (R217). -/
def condBcs (s : State) : Bool := s.flagC

/-- $B0 BCS n. -/
def execBcs (n : Byte) (s : State) : Result :=
  branchInstr 0xB0 2 condBcs n s

/-! ### BEQ (R218) -/

/-- Z = 1 (R218). -/
def condBeq (s : State) : Bool := s.flagZ

/-- $F0 BEQ n. -/
def execBeq (n : Byte) (s : State) : Result :=
  branchInstr 0xF0 2 condBeq n s

/-! ### BNE (R219) -/

/-- Z = 0 (R219). -/
def condBne (s : State) : Bool := !s.flagZ

/-- $D0 BNE n. -/
def execBne (n : Byte) (s : State) : Result :=
  branchInstr 0xD0 2 condBne n s

/-! ### BMI (R220) -/

/-- N = 1 (R220). -/
def condBmi (s : State) : Bool := s.flagN

/-- $30 BMI n. -/
def execBmi (n : Byte) (s : State) : Result :=
  branchInstr 0x30 2 condBmi n s

/-! ### BPL (R221) -/

/-- N = 0 (R221). -/
def condBpl (s : State) : Bool := !s.flagN

/-- $10 BPL n. -/
def execBpl (n : Byte) (s : State) : Result :=
  branchInstr 0x10 2 condBpl n s

/-! ### BVC (R222) -/

/-- V = 0 (R222). -/
def condBvc (s : State) : Bool := !s.flagV

/-- $50 BVC n. -/
def execBvc (n : Byte) (s : State) : Result :=
  branchInstr 0x50 2 condBvc n s

/-! ### BVS (R223) -/

/-- V = 1 (R223). -/
def condBvs (s : State) : Bool := s.flagV

/-- $70 BVS n. -/
def execBvs (n : Byte) (s : State) : Result :=
  branchInstr 0x70 2 condBvs n s

end Sys2Proof.Machine
end

