-- ==== Sys2Proof/Machine/FlagOps.lean ====
section
/-! DEFINITION. Flag instructions and NOP (spec/46_flags_nop.md), each in the implied shape (R101). -/

namespace Sys2Proof.Machine

/-! ### CLC (R240) -/

/-- R240. -/
def effClc (s : State) : State := s.setC false

/-- $18 CLC. -/
def execClc (s : State) : Result :=
  impliedInstr 0x18 2 effClc s

/-! ### CLD (R241) -/

/-- R241. -/
def effCld (s : State) : State := { s with flagD := false }

/-- $D8 CLD. -/
def execCld (s : State) : Result :=
  impliedInstr 0xD8 2 effCld s

/-! ### CLI (R242) -/

/-- R242. -/
def effCli (s : State) : State := { s with flagI := false }

/-- $58 CLI. -/
def execCli (s : State) : Result :=
  impliedInstr 0x58 2 effCli s

/-! ### CLV (R243) -/

/-- R243. -/
def effClv (s : State) : State := { s with flagV := false }

/-- $B8 CLV. -/
def execClv (s : State) : Result :=
  impliedInstr 0xB8 2 effClv s

/-! ### SEC (R244) -/

/-- R244. -/
def effSec (s : State) : State := s.setC true

/-- $38 SEC. -/
def execSec (s : State) : Result :=
  impliedInstr 0x38 2 effSec s

/-! ### SED (R245) -/

/-- R245. -/
def effSed (s : State) : State := { s with flagD := true }

/-- $F8 SED. -/
def execSed (s : State) : Result :=
  impliedInstr 0xF8 2 effSed s

/-! ### SEI (R246) -/

/-- R246. -/
def effSei (s : State) : State := { s with flagI := true }

/-- $78 SEI. -/
def execSei (s : State) : Result :=
  impliedInstr 0x78 2 effSei s

/-! ### NOP (R247) -/

/-- R247; also the implied `NOP*` (R261). -/
def effNop (s : State) : State := s

/-- $EA NOP. -/
def execNop (s : State) : Result :=
  impliedInstr 0xEA 2 effNop s

end Sys2Proof.Machine
end

