-- ==== Sys2Proof/Machine/LoadStore.lean ====
section
/-! DEFINITION. Loads, stores and register transfers (spec/41_load_store_transfer.md). Each meaning is the access
shape of its row applied to the effect of its rule. -/

namespace Sys2Proof.Machine

/-! ### LDA (R140) -/

/-- $A1 LDA (n,X). -/
def execLdaIndX (n : Byte) (s : State) : Result :=
  readInstr 0xA1 6 (.mem (.indX n)) State.loadA s

/-- $A5 LDA n. -/
def execLdaZp (n : Byte) (s : State) : Result :=
  readInstr 0xA5 3 (.mem (.zp n)) State.loadA s

/-- $A9 LDA #n. -/
def execLdaImm (n : Byte) (s : State) : Result :=
  readInstr 0xA9 2 (.imm n) State.loadA s

/-- $AD LDA hilo. -/
def execLdaAbs (lo hi : Byte) (s : State) : Result :=
  readInstr 0xAD 4 (.mem (.abs lo hi)) State.loadA s

/-- $B1 LDA (n),Y. -/
def execLdaIndY (n : Byte) (s : State) : Result :=
  readInstr 0xB1 5 (.mem (.indY n)) State.loadA s

/-- $B5 LDA n,X. -/
def execLdaZpX (n : Byte) (s : State) : Result :=
  readInstr 0xB5 4 (.mem (.zpX n)) State.loadA s

/-- $B9 LDA hilo,Y. -/
def execLdaAbsY (lo hi : Byte) (s : State) : Result :=
  readInstr 0xB9 4 (.mem (.absY lo hi)) State.loadA s

/-- $BD LDA hilo,X. -/
def execLdaAbsX (lo hi : Byte) (s : State) : Result :=
  readInstr 0xBD 4 (.mem (.absX lo hi)) State.loadA s

/-! ### LDX (R141) -/

/-- $A2 LDX #n. -/
def execLdxImm (n : Byte) (s : State) : Result :=
  readInstr 0xA2 2 (.imm n) State.loadX s

/-- $A6 LDX n. -/
def execLdxZp (n : Byte) (s : State) : Result :=
  readInstr 0xA6 3 (.mem (.zp n)) State.loadX s

/-- $AE LDX hilo. -/
def execLdxAbs (lo hi : Byte) (s : State) : Result :=
  readInstr 0xAE 4 (.mem (.abs lo hi)) State.loadX s

/-- $B6 LDX n,Y. -/
def execLdxZpY (n : Byte) (s : State) : Result :=
  readInstr 0xB6 4 (.mem (.zpY n)) State.loadX s

/-- $BE LDX hilo,Y. -/
def execLdxAbsY (lo hi : Byte) (s : State) : Result :=
  readInstr 0xBE 4 (.mem (.absY lo hi)) State.loadX s

/-! ### LDY (R142) -/

/-- $A0 LDY #n. -/
def execLdyImm (n : Byte) (s : State) : Result :=
  readInstr 0xA0 2 (.imm n) State.loadY s

/-- $A4 LDY n. -/
def execLdyZp (n : Byte) (s : State) : Result :=
  readInstr 0xA4 3 (.mem (.zp n)) State.loadY s

/-- $AC LDY hilo. -/
def execLdyAbs (lo hi : Byte) (s : State) : Result :=
  readInstr 0xAC 4 (.mem (.abs lo hi)) State.loadY s

/-- $B4 LDY n,X. -/
def execLdyZpX (n : Byte) (s : State) : Result :=
  readInstr 0xB4 4 (.mem (.zpX n)) State.loadY s

/-- $BC LDY hilo,X. -/
def execLdyAbsX (lo hi : Byte) (s : State) : Result :=
  readInstr 0xBC 4 (.mem (.absX lo hi)) State.loadY s

/-! ### STA (R143) -/

/-- $81 STA (n,X). -/
def execStaIndX (n : Byte) (s : State) : Result :=
  storeInstr 0x81 6 (.indX n) State.a s

/-- $85 STA n. -/
def execStaZp (n : Byte) (s : State) : Result :=
  storeInstr 0x85 3 (.zp n) State.a s

/-- $8D STA hilo. -/
def execStaAbs (lo hi : Byte) (s : State) : Result :=
  storeInstr 0x8D 4 (.abs lo hi) State.a s

/-- $91 STA (n),Y. -/
def execStaIndY (n : Byte) (s : State) : Result :=
  storeInstr 0x91 6 (.indY n) State.a s

/-- $95 STA n,X. -/
def execStaZpX (n : Byte) (s : State) : Result :=
  storeInstr 0x95 4 (.zpX n) State.a s

/-- $99 STA hilo,Y. -/
def execStaAbsY (lo hi : Byte) (s : State) : Result :=
  storeInstr 0x99 5 (.absY lo hi) State.a s

/-- $9D STA hilo,X. -/
def execStaAbsX (lo hi : Byte) (s : State) : Result :=
  storeInstr 0x9D 5 (.absX lo hi) State.a s

/-! ### STX (R144) -/

/-- $86 STX n. -/
def execStxZp (n : Byte) (s : State) : Result :=
  storeInstr 0x86 3 (.zp n) State.x s

/-- $8E STX hilo. -/
def execStxAbs (lo hi : Byte) (s : State) : Result :=
  storeInstr 0x8E 4 (.abs lo hi) State.x s

/-- $96 STX n,Y. -/
def execStxZpY (n : Byte) (s : State) : Result :=
  storeInstr 0x96 4 (.zpY n) State.x s

/-! ### STY (R145) -/

/-- $84 STY n. -/
def execStyZp (n : Byte) (s : State) : Result :=
  storeInstr 0x84 3 (.zp n) State.y s

/-- $8C STY hilo. -/
def execStyAbs (lo hi : Byte) (s : State) : Result :=
  storeInstr 0x8C 4 (.abs lo hi) State.y s

/-- $94 STY n,X. -/
def execStyZpX (n : Byte) (s : State) : Result :=
  storeInstr 0x94 4 (.zpX n) State.y s

/-! ### TAX (R146) -/

/-- `X <- A; SetNZ(X)` (R146). -/
def effTax (s : State) : State := s.loadX s.a

/-- $AA TAX. -/
def execTax (s : State) : Result :=
  impliedInstr 0xAA 2 effTax s

/-! ### TAY (R147) -/

/-- `Y <- A; SetNZ(Y)` (R147). -/
def effTay (s : State) : State := s.loadY s.a

/-- $A8 TAY. -/
def execTay (s : State) : Result :=
  impliedInstr 0xA8 2 effTay s

/-! ### TXA (R148) -/

/-- `A <- X; SetNZ(A)` (R148). -/
def effTxa (s : State) : State := s.loadA s.x

/-- $8A TXA. -/
def execTxa (s : State) : Result :=
  impliedInstr 0x8A 2 effTxa s

/-! ### TYA (R149) -/

/-- `A <- Y; SetNZ(A)` (R149). -/
def effTya (s : State) : State := s.loadA s.y

/-- $98 TYA. -/
def execTya (s : State) : Result :=
  impliedInstr 0x98 2 effTya s

/-! ### TSX (R150) -/

/-- `X <- S; SetNZ(X)` (R150). -/
def effTsx (s : State) : State := s.loadX s.sp

/-- $BA TSX. -/
def execTsx (s : State) : Result :=
  impliedInstr 0xBA 2 effTsx s

/-! ### TXS (R151) -/

/-- `S <- X`, no flag (R151). -/
def effTxs (s : State) : State := { s with sp := s.x }

/-- $9A TXS. -/
def execTxs (s : State) : Result :=
  impliedInstr 0x9A 2 effTxs s

end Sys2Proof.Machine
end

