-- ==== Sys2Proof/Machine/Shift.lean ====
section
/-! DEFINITION. Shifts and rotates (spec/43_shift_rotate.md): one effect each, used in accumulator mode and in
read-modify-write mode. V is never changed. -/

namespace Sys2Proof.Machine

/-! ### ASL (R190) -/

/-- A shift written out: the value goes back where it came from, C is the bit shifted out, N and Z are of the
result. -/
def State.shifted (r : Shifted) (s : State) : Byte × State := (r.1, (s.setC r.2).setNZ r.1)

/-- R190. -/
def effAsl (v : Byte) (s : State) : Byte × State := s.shifted (shiftAsl v)

/-- $06 ASL n. -/
def execAslZp (n : Byte) (s : State) : Result :=
  rmwInstr 0x06 5 (.zp n) effAsl s

/-- $0A ASL A. -/
def execAslAcc (s : State) : Result :=
  accInstr 0x0A 2 effAsl s

/-- $0E ASL hilo. -/
def execAslAbs (lo hi : Byte) (s : State) : Result :=
  rmwInstr 0x0E 6 (.abs lo hi) effAsl s

/-- $16 ASL n,X. -/
def execAslZpX (n : Byte) (s : State) : Result :=
  rmwInstr 0x16 6 (.zpX n) effAsl s

/-- $1E ASL hilo,X. -/
def execAslAbsX (lo hi : Byte) (s : State) : Result :=
  rmwInstr 0x1E 7 (.absX lo hi) effAsl s

/-! ### LSR (R191) -/

/-- R191. -/
def effLsr (v : Byte) (s : State) : Byte × State := s.shifted (shiftLsr v)

/-- $46 LSR n. -/
def execLsrZp (n : Byte) (s : State) : Result :=
  rmwInstr 0x46 5 (.zp n) effLsr s

/-- $4A LSR A. -/
def execLsrAcc (s : State) : Result :=
  accInstr 0x4A 2 effLsr s

/-- $4E LSR hilo. -/
def execLsrAbs (lo hi : Byte) (s : State) : Result :=
  rmwInstr 0x4E 6 (.abs lo hi) effLsr s

/-- $56 LSR n,X. -/
def execLsrZpX (n : Byte) (s : State) : Result :=
  rmwInstr 0x56 6 (.zpX n) effLsr s

/-- $5E LSR hilo,X. -/
def execLsrAbsX (lo hi : Byte) (s : State) : Result :=
  rmwInstr 0x5E 7 (.absX lo hi) effLsr s

/-! ### ROL (R192) -/

/-- R192. -/
def effRol (v : Byte) (s : State) : Byte × State := s.shifted (shiftRol s.flagC v)

/-- $26 ROL n. -/
def execRolZp (n : Byte) (s : State) : Result :=
  rmwInstr 0x26 5 (.zp n) effRol s

/-- $2A ROL A. -/
def execRolAcc (s : State) : Result :=
  accInstr 0x2A 2 effRol s

/-- $2E ROL hilo. -/
def execRolAbs (lo hi : Byte) (s : State) : Result :=
  rmwInstr 0x2E 6 (.abs lo hi) effRol s

/-- $36 ROL n,X. -/
def execRolZpX (n : Byte) (s : State) : Result :=
  rmwInstr 0x36 6 (.zpX n) effRol s

/-- $3E ROL hilo,X. -/
def execRolAbsX (lo hi : Byte) (s : State) : Result :=
  rmwInstr 0x3E 7 (.absX lo hi) effRol s

/-! ### ROR (R193) -/

/-- R193. -/
def effRor (v : Byte) (s : State) : Byte × State := s.shifted (shiftRor s.flagC v)

/-- $66 ROR n. -/
def execRorZp (n : Byte) (s : State) : Result :=
  rmwInstr 0x66 5 (.zp n) effRor s

/-- $6A ROR A. -/
def execRorAcc (s : State) : Result :=
  accInstr 0x6A 2 effRor s

/-- $6E ROR hilo. -/
def execRorAbs (lo hi : Byte) (s : State) : Result :=
  rmwInstr 0x6E 6 (.abs lo hi) effRor s

/-- $76 ROR n,X. -/
def execRorZpX (n : Byte) (s : State) : Result :=
  rmwInstr 0x76 6 (.zpX n) effRor s

/-- $7E ROR hilo,X. -/
def execRorAbsX (lo hi : Byte) (s : State) : Result :=
  rmwInstr 0x7E 7 (.absX lo hi) effRor s

end Sys2Proof.Machine
end

