-- ==== Sys2Proof/Machine/Stack.lean ====
section
/-! DEFINITION. Stack instructions (spec/44_stack.md). The dummy read of the byte after the opcode is the implied
shape's; the pulls also dummy-read the stack byte before S moves (R59). -/

namespace Sys2Proof.Machine

/-! ### PHA (R200) -/

/-- `Push(A)` (R200). -/
def effPha (s : State) : State := s.push s.a

/-- $48 PHA. -/
def execPha (s : State) : Result :=
  impliedInstr 0x48 3 effPha s

/-! ### PHP (R201) -/

/-- `Push(PackP(1))` (R201). -/
def effPhp (s : State) : State := s.push (s.packP true)

/-- $08 PHP. -/
def execPhp (s : State) : Result :=
  impliedInstr 0x08 3 effPhp s

/-! ### PLA (R202) -/

/-- `DummyRead(word($01, S)); A <- Pull(); SetNZ(A)` (R202). -/
def effPla (s : State) : State :=
  let v := (s.dummyRead s.stackAddr).pull
  v.2.loadA v.1

/-- $68 PLA. -/
def execPla (s : State) : Result :=
  impliedInstr 0x68 4 effPla s

/-! ### PLP (R203) -/

/-- `DummyRead(word($01, S)); UnpackP(Pull())` (R203). -/
def effPlp (s : State) : State :=
  let v := (s.dummyRead s.stackAddr).pull
  v.2.unpackP v.1

/-- $28 PLP. -/
def execPlp (s : State) : Result :=
  impliedInstr 0x28 4 effPlp s

end Sys2Proof.Machine
end

