-- ==== Sys2Proof/Machine/Unofficial.lean ====
section
/-! DEFINITION. Unofficial opcodes (spec/47_unofficial.md), each behind the admission of R260. -/

namespace Sys2Proof.Machine

/-! ### NOP* (R261) -/

/-- The value read is discarded (R261). -/
def effNopStar (_m : Byte) (s : State) : State := s

/-- $04 NOP* n. -/
def execNop04Zp (n : Byte) (s : State) : Result :=
  admitted 0x04 s (readInstr 0x04 3 (.mem (.zp n)) effNopStar s)

/-- $0C NOP* hilo. -/
def execNop0CAbs (lo hi : Byte) (s : State) : Result :=
  admitted 0x0C s (readInstr 0x0C 4 (.mem (.abs lo hi)) effNopStar s)

/-- $14 NOP* n,X. -/
def execNop14ZpX (n : Byte) (s : State) : Result :=
  admitted 0x14 s (readInstr 0x14 4 (.mem (.zpX n)) effNopStar s)

/-- $1A NOP*. -/
def execNop1A (s : State) : Result :=
  admitted 0x1A s (impliedInstr 0x1A 2 effNop s)

/-- $1C NOP* hilo,X. -/
def execNop1CAbsX (lo hi : Byte) (s : State) : Result :=
  admitted 0x1C s (readInstr 0x1C 4 (.mem (.absX lo hi)) effNopStar s)

/-- $34 NOP* n,X. -/
def execNop34ZpX (n : Byte) (s : State) : Result :=
  admitted 0x34 s (readInstr 0x34 4 (.mem (.zpX n)) effNopStar s)

/-- $3A NOP*. -/
def execNop3A (s : State) : Result :=
  admitted 0x3A s (impliedInstr 0x3A 2 effNop s)

/-- $3C NOP* hilo,X. -/
def execNop3CAbsX (lo hi : Byte) (s : State) : Result :=
  admitted 0x3C s (readInstr 0x3C 4 (.mem (.absX lo hi)) effNopStar s)

/-- $44 NOP* n. -/
def execNop44Zp (n : Byte) (s : State) : Result :=
  admitted 0x44 s (readInstr 0x44 3 (.mem (.zp n)) effNopStar s)

/-- $54 NOP* n,X. -/
def execNop54ZpX (n : Byte) (s : State) : Result :=
  admitted 0x54 s (readInstr 0x54 4 (.mem (.zpX n)) effNopStar s)

/-- $5A NOP*. -/
def execNop5A (s : State) : Result :=
  admitted 0x5A s (impliedInstr 0x5A 2 effNop s)

/-- $5C NOP* hilo,X. -/
def execNop5CAbsX (lo hi : Byte) (s : State) : Result :=
  admitted 0x5C s (readInstr 0x5C 4 (.mem (.absX lo hi)) effNopStar s)

/-- $64 NOP* n. -/
def execNop64Zp (n : Byte) (s : State) : Result :=
  admitted 0x64 s (readInstr 0x64 3 (.mem (.zp n)) effNopStar s)

/-- $74 NOP* n,X. -/
def execNop74ZpX (n : Byte) (s : State) : Result :=
  admitted 0x74 s (readInstr 0x74 4 (.mem (.zpX n)) effNopStar s)

/-- $7A NOP*. -/
def execNop7A (s : State) : Result :=
  admitted 0x7A s (impliedInstr 0x7A 2 effNop s)

/-- $7C NOP* hilo,X. -/
def execNop7CAbsX (lo hi : Byte) (s : State) : Result :=
  admitted 0x7C s (readInstr 0x7C 4 (.mem (.absX lo hi)) effNopStar s)

/-- $80 NOP* #n. -/
def execNop80Imm (n : Byte) (s : State) : Result :=
  admitted 0x80 s (readInstr 0x80 2 (.imm n) effNopStar s)

/-- $82 NOP* #n. -/
def execNop82Imm (n : Byte) (s : State) : Result :=
  admitted 0x82 s (readInstr 0x82 2 (.imm n) effNopStar s)

/-- $89 NOP* #n. -/
def execNop89Imm (n : Byte) (s : State) : Result :=
  admitted 0x89 s (readInstr 0x89 2 (.imm n) effNopStar s)

/-- $C2 NOP* #n. -/
def execNopC2Imm (n : Byte) (s : State) : Result :=
  admitted 0xC2 s (readInstr 0xC2 2 (.imm n) effNopStar s)

/-- $D4 NOP* n,X. -/
def execNopD4ZpX (n : Byte) (s : State) : Result :=
  admitted 0xD4 s (readInstr 0xD4 4 (.mem (.zpX n)) effNopStar s)

/-- $DA NOP*. -/
def execNopDA (s : State) : Result :=
  admitted 0xDA s (impliedInstr 0xDA 2 effNop s)

/-- $DC NOP* hilo,X. -/
def execNopDCAbsX (lo hi : Byte) (s : State) : Result :=
  admitted 0xDC s (readInstr 0xDC 4 (.mem (.absX lo hi)) effNopStar s)

/-- $E2 NOP* #n. -/
def execNopE2Imm (n : Byte) (s : State) : Result :=
  admitted 0xE2 s (readInstr 0xE2 2 (.imm n) effNopStar s)

/-- $F4 NOP* n,X. -/
def execNopF4ZpX (n : Byte) (s : State) : Result :=
  admitted 0xF4 s (readInstr 0xF4 4 (.mem (.zpX n)) effNopStar s)

/-- $FA NOP*. -/
def execNopFA (s : State) : Result :=
  admitted 0xFA s (impliedInstr 0xFA 2 effNop s)

/-- $FC NOP* hilo,X. -/
def execNopFCAbsX (lo hi : Byte) (s : State) : Result :=
  admitted 0xFC s (readInstr 0xFC 4 (.mem (.absX lo hi)) effNopStar s)

/-! ### SLO (R262) -/

/-- ASL of `M`, then `A <- A | f(M); SetNZ(A)` (R262). -/
def effSlo (m : Byte) (s : State) : Byte × State :=
  let r := shiftAsl m
  (r.1, (s.setC r.2).loadA (s.a ||| r.1))

/-- $03 SLO (n,X). -/
def execSloIndX (n : Byte) (s : State) : Result :=
  admitted 0x03 s (rmwInstr 0x03 8 (.indX n) effSlo s)

/-- $07 SLO n. -/
def execSloZp (n : Byte) (s : State) : Result :=
  admitted 0x07 s (rmwInstr 0x07 5 (.zp n) effSlo s)

/-- $0F SLO hilo. -/
def execSloAbs (lo hi : Byte) (s : State) : Result :=
  admitted 0x0F s (rmwInstr 0x0F 6 (.abs lo hi) effSlo s)

/-- $13 SLO (n),Y. -/
def execSloIndY (n : Byte) (s : State) : Result :=
  admitted 0x13 s (rmwInstr 0x13 8 (.indY n) effSlo s)

/-- $17 SLO n,X. -/
def execSloZpX (n : Byte) (s : State) : Result :=
  admitted 0x17 s (rmwInstr 0x17 6 (.zpX n) effSlo s)

/-- $1B SLO hilo,Y. -/
def execSloAbsY (lo hi : Byte) (s : State) : Result :=
  admitted 0x1B s (rmwInstr 0x1B 7 (.absY lo hi) effSlo s)

/-- $1F SLO hilo,X. -/
def execSloAbsX (lo hi : Byte) (s : State) : Result :=
  admitted 0x1F s (rmwInstr 0x1F 7 (.absX lo hi) effSlo s)

/-! ### RLA (R263) -/

/-- ROL of `M`, then `A <- A & f(M); SetNZ(A)` (R263). -/
def effRla (m : Byte) (s : State) : Byte × State :=
  let r := shiftRol s.flagC m
  (r.1, (s.setC r.2).loadA (s.a &&& r.1))

/-- $23 RLA (n,X). -/
def execRlaIndX (n : Byte) (s : State) : Result :=
  admitted 0x23 s (rmwInstr 0x23 8 (.indX n) effRla s)

/-- $27 RLA n. -/
def execRlaZp (n : Byte) (s : State) : Result :=
  admitted 0x27 s (rmwInstr 0x27 5 (.zp n) effRla s)

/-- $2F RLA hilo. -/
def execRlaAbs (lo hi : Byte) (s : State) : Result :=
  admitted 0x2F s (rmwInstr 0x2F 6 (.abs lo hi) effRla s)

/-- $33 RLA (n),Y. -/
def execRlaIndY (n : Byte) (s : State) : Result :=
  admitted 0x33 s (rmwInstr 0x33 8 (.indY n) effRla s)

/-- $37 RLA n,X. -/
def execRlaZpX (n : Byte) (s : State) : Result :=
  admitted 0x37 s (rmwInstr 0x37 6 (.zpX n) effRla s)

/-- $3B RLA hilo,Y. -/
def execRlaAbsY (lo hi : Byte) (s : State) : Result :=
  admitted 0x3B s (rmwInstr 0x3B 7 (.absY lo hi) effRla s)

/-- $3F RLA hilo,X. -/
def execRlaAbsX (lo hi : Byte) (s : State) : Result :=
  admitted 0x3F s (rmwInstr 0x3F 7 (.absX lo hi) effRla s)

/-! ### SRE (R264) -/

/-- LSR of `M`, then `A <- A ^ f(M); SetNZ(A)` (R264). -/
def effSre (m : Byte) (s : State) : Byte × State :=
  let r := shiftLsr m
  (r.1, (s.setC r.2).loadA (s.a ^^^ r.1))

/-- $43 SRE (n,X). -/
def execSreIndX (n : Byte) (s : State) : Result :=
  admitted 0x43 s (rmwInstr 0x43 8 (.indX n) effSre s)

/-- $47 SRE n. -/
def execSreZp (n : Byte) (s : State) : Result :=
  admitted 0x47 s (rmwInstr 0x47 5 (.zp n) effSre s)

/-- $4F SRE hilo. -/
def execSreAbs (lo hi : Byte) (s : State) : Result :=
  admitted 0x4F s (rmwInstr 0x4F 6 (.abs lo hi) effSre s)

/-- $53 SRE (n),Y. -/
def execSreIndY (n : Byte) (s : State) : Result :=
  admitted 0x53 s (rmwInstr 0x53 8 (.indY n) effSre s)

/-- $57 SRE n,X. -/
def execSreZpX (n : Byte) (s : State) : Result :=
  admitted 0x57 s (rmwInstr 0x57 6 (.zpX n) effSre s)

/-- $5B SRE hilo,Y. -/
def execSreAbsY (lo hi : Byte) (s : State) : Result :=
  admitted 0x5B s (rmwInstr 0x5B 7 (.absY lo hi) effSre s)

/-- $5F SRE hilo,X. -/
def execSreAbsX (lo hi : Byte) (s : State) : Result :=
  admitted 0x5F s (rmwInstr 0x5F 7 (.absX lo hi) effSre s)

/-! ### RRA (R265) -/

/-- ROR of `M`, then `AddCore(A, f(M), C)` with the carry the rotate left (R265). -/
def effRra (m : Byte) (s : State) : Byte × State :=
  let r := shiftRor s.flagC m
  (r.1, s.addCore s.a r.1 r.2)

/-- $63 RRA (n,X). -/
def execRraIndX (n : Byte) (s : State) : Result :=
  admitted 0x63 s (rmwInstr 0x63 8 (.indX n) effRra s)

/-- $67 RRA n. -/
def execRraZp (n : Byte) (s : State) : Result :=
  admitted 0x67 s (rmwInstr 0x67 5 (.zp n) effRra s)

/-- $6F RRA hilo. -/
def execRraAbs (lo hi : Byte) (s : State) : Result :=
  admitted 0x6F s (rmwInstr 0x6F 6 (.abs lo hi) effRra s)

/-- $73 RRA (n),Y. -/
def execRraIndY (n : Byte) (s : State) : Result :=
  admitted 0x73 s (rmwInstr 0x73 8 (.indY n) effRra s)

/-- $77 RRA n,X. -/
def execRraZpX (n : Byte) (s : State) : Result :=
  admitted 0x77 s (rmwInstr 0x77 6 (.zpX n) effRra s)

/-- $7B RRA hilo,Y. -/
def execRraAbsY (lo hi : Byte) (s : State) : Result :=
  admitted 0x7B s (rmwInstr 0x7B 7 (.absY lo hi) effRra s)

/-- $7F RRA hilo,X. -/
def execRraAbsX (lo hi : Byte) (s : State) : Result :=
  admitted 0x7F s (rmwInstr 0x7F 7 (.absX lo hi) effRra s)

/-! ### DCP (R268) -/

/-- `f(M) = M - 1`, then `Compare(A, f(M))` (R268). -/
def effDcp (m : Byte) (s : State) : Byte × State := (m - 1, s.compare s.a (m - 1))

/-- $C3 DCP (n,X). -/
def execDcpIndX (n : Byte) (s : State) : Result :=
  admitted 0xC3 s (rmwInstr 0xC3 8 (.indX n) effDcp s)

/-- $C7 DCP n. -/
def execDcpZp (n : Byte) (s : State) : Result :=
  admitted 0xC7 s (rmwInstr 0xC7 5 (.zp n) effDcp s)

/-- $CF DCP hilo. -/
def execDcpAbs (lo hi : Byte) (s : State) : Result :=
  admitted 0xCF s (rmwInstr 0xCF 6 (.abs lo hi) effDcp s)

/-- $D3 DCP (n),Y. -/
def execDcpIndY (n : Byte) (s : State) : Result :=
  admitted 0xD3 s (rmwInstr 0xD3 8 (.indY n) effDcp s)

/-- $D7 DCP n,X. -/
def execDcpZpX (n : Byte) (s : State) : Result :=
  admitted 0xD7 s (rmwInstr 0xD7 6 (.zpX n) effDcp s)

/-- $DB DCP hilo,Y. -/
def execDcpAbsY (lo hi : Byte) (s : State) : Result :=
  admitted 0xDB s (rmwInstr 0xDB 7 (.absY lo hi) effDcp s)

/-- $DF DCP hilo,X. -/
def execDcpAbsX (lo hi : Byte) (s : State) : Result :=
  admitted 0xDF s (rmwInstr 0xDF 7 (.absX lo hi) effDcp s)

/-! ### ISC (R269) -/

/-- `f(M) = M + 1`, then `AddCore(A, f(M) ^ $FF, C)` (R269). -/
def effIsc (m : Byte) (s : State) : Byte × State := (m + 1, s.addCore s.a ((m + 1) ^^^ 0xFF) s.flagC)

/-- $E3 ISC (n,X). -/
def execIscIndX (n : Byte) (s : State) : Result :=
  admitted 0xE3 s (rmwInstr 0xE3 8 (.indX n) effIsc s)

/-- $E7 ISC n. -/
def execIscZp (n : Byte) (s : State) : Result :=
  admitted 0xE7 s (rmwInstr 0xE7 5 (.zp n) effIsc s)

/-- $EF ISC hilo. -/
def execIscAbs (lo hi : Byte) (s : State) : Result :=
  admitted 0xEF s (rmwInstr 0xEF 6 (.abs lo hi) effIsc s)

/-- $F3 ISC (n),Y. -/
def execIscIndY (n : Byte) (s : State) : Result :=
  admitted 0xF3 s (rmwInstr 0xF3 8 (.indY n) effIsc s)

/-- $F7 ISC n,X. -/
def execIscZpX (n : Byte) (s : State) : Result :=
  admitted 0xF7 s (rmwInstr 0xF7 6 (.zpX n) effIsc s)

/-- $FB ISC hilo,Y. -/
def execIscAbsY (lo hi : Byte) (s : State) : Result :=
  admitted 0xFB s (rmwInstr 0xFB 7 (.absY lo hi) effIsc s)

/-- $FF ISC hilo,X. -/
def execIscAbsX (lo hi : Byte) (s : State) : Result :=
  admitted 0xFF s (rmwInstr 0xFF 7 (.absX lo hi) effIsc s)

/-! ### SAX (R266) -/

/-- `A & X` (R266). -/
def valSax (s : State) : Byte := s.a &&& s.x

/-- $83 SAX (n,X). -/
def execSaxIndX (n : Byte) (s : State) : Result :=
  admitted 0x83 s (storeInstr 0x83 6 (.indX n) valSax s)

/-- $87 SAX n. -/
def execSaxZp (n : Byte) (s : State) : Result :=
  admitted 0x87 s (storeInstr 0x87 3 (.zp n) valSax s)

/-- $8F SAX hilo. -/
def execSaxAbs (lo hi : Byte) (s : State) : Result :=
  admitted 0x8F s (storeInstr 0x8F 4 (.abs lo hi) valSax s)

/-- $97 SAX n,Y. -/
def execSaxZpY (n : Byte) (s : State) : Result :=
  admitted 0x97 s (storeInstr 0x97 4 (.zpY n) valSax s)

/-! ### LAX (R267) -/

/-- `A <- M; X <- M; SetNZ(M)` (R267). -/
def effLax (m : Byte) (s : State) : State := { s with x := m }.loadA m

/-- $A3 LAX (n,X). -/
def execLaxIndX (n : Byte) (s : State) : Result :=
  admitted 0xA3 s (readInstr 0xA3 6 (.mem (.indX n)) effLax s)

/-- $A7 LAX n. -/
def execLaxZp (n : Byte) (s : State) : Result :=
  admitted 0xA7 s (readInstr 0xA7 3 (.mem (.zp n)) effLax s)

/-- $AF LAX hilo. -/
def execLaxAbs (lo hi : Byte) (s : State) : Result :=
  admitted 0xAF s (readInstr 0xAF 4 (.mem (.abs lo hi)) effLax s)

/-- $B3 LAX (n),Y. -/
def execLaxIndY (n : Byte) (s : State) : Result :=
  admitted 0xB3 s (readInstr 0xB3 5 (.mem (.indY n)) effLax s)

/-- $B7 LAX n,Y. -/
def execLaxZpY (n : Byte) (s : State) : Result :=
  admitted 0xB7 s (readInstr 0xB7 4 (.mem (.zpY n)) effLax s)

/-- $BF LAX hilo,Y. -/
def execLaxAbsY (lo hi : Byte) (s : State) : Result :=
  admitted 0xBF s (readInstr 0xBF 4 (.mem (.absY lo hi)) effLax s)

/-! ### LAS (R281) -/

/-- `t <- M & S; A, X, S <- t; SetNZ(t)` (R281). -/
def effLas (m : Byte) (s : State) : State := { s with x := m &&& s.sp, sp := m &&& s.sp }.loadA (m &&& s.sp)

/-- $BB LAS hilo,Y. -/
def execLasAbsY (lo hi : Byte) (s : State) : Result :=
  admitted 0xBB s (readInstr 0xBB 4 (.mem (.absY lo hi)) effLas s)

/-! ### ANC (R270) -/

/-- `A <- A & M; SetNZ(A); C <- A[7]` (R270). -/
def effAnc (m : Byte) (s : State) : State := (s.loadA (s.a &&& m)).setC ((s.a &&& m).getLsbD 7)

/-- $0B ANC #n. -/
def execAnc0BImm (n : Byte) (s : State) : Result :=
  admitted 0x0B s (readInstr 0x0B 2 (.imm n) effAnc s)

/-- $2B ANC #n. -/
def execAnc2BImm (n : Byte) (s : State) : Result :=
  admitted 0x2B s (readInstr 0x2B 2 (.imm n) effAnc s)

/-! ### ALR (R271) -/

/-- `t <- A & M; C <- t[0]; A <- t >> 1; SetNZ(A)` (R271). -/
def effAlr (m : Byte) (s : State) : State :=
  let t := s.a &&& m
  (s.setC (t.getLsbD 0)).loadA (t >>> 1)

/-- $4B ALR #n. -/
def execAlrImm (n : Byte) (s : State) : Result :=
  admitted 0x4B s (readInstr 0x4B 2 (.imm n) effAlr s)

/-! ### ARR (R272) -/

/-- `t <- A & M; r <- (C << 7) | (t >> 1); A <- r; SetNZ(r); C <- r[6]; V <- r[6] ^ r[5]` (R272). -/
def effArr (m : Byte) (s : State) : State :=
  let r := (bit s.flagC <<< 7) ||| ((s.a &&& m) >>> 1)
  { s with flagC := r.getLsbD 6, flagV := xor (r.getLsbD 6) (r.getLsbD 5) }.loadA r

/-- $6B ARR #n. -/
def execArrImm (n : Byte) (s : State) : Result :=
  admitted 0x6B s (readInstr 0x6B 2 (.imm n) effArr s)

/-! ### SBX (R273) -/

/-- `t <- A & X; C <- t >= M; X <- t - M; SetNZ(X)` (R273). -/
def effSbx (m : Byte) (s : State) : State :=
  let t := s.a &&& s.x
  (s.setC (decide (m ≤ t))).loadX (t - m)

/-- $CB SBX #n. -/
def execSbxImm (n : Byte) (s : State) : Result :=
  admitted 0xCB s (readInstr 0xCB 2 (.imm n) effSbx s)

/-! ### USBC (R274) -/

/-- `AddCore(A, M ^ $FF, C)` (R274). -/
def effUsbc (m : Byte) (s : State) : State := s.addCore s.a (m ^^^ 0xFF) s.flagC

/-- $EB USBC #n. -/
def execUsbcImm (n : Byte) (s : State) : Result :=
  admitted 0xEB s (readInstr 0xEB 2 (.imm n) effUsbc s)

/-! ### ANE (R275) -/

/-- `A <- (A | P_ANE_MAGIC) & X & M; SetNZ(A)` (R275). -/
def effAne (m : Byte) (s : State) : State := s.loadA ((s.a ||| s.params.aneMagic) &&& s.x &&& m)

/-- $8B ANE #n. -/
def execAneImm (n : Byte) (s : State) : Result :=
  admitted 0x8B s (readInstr 0x8B 2 (.imm n) effAne s)

/-! ### LXA (R276) -/

/-- `t <- (A | P_LXA_MAGIC) & M; A, X <- t; SetNZ(t)` (R276). -/
def effLxa (m : Byte) (s : State) : State :=
  let t := (s.a ||| s.params.lxaMagic) &&& m
  { s with x := t }.loadA t

/-- $AB LXA #n. -/
def execLxaImm (n : Byte) (s : State) : Result :=
  admitted 0xAB s (readInstr 0xAB 2 (.imm n) effLxa s)

/-! ### SHA (R277) -/

/-- SHA, SHX and SHY leave S alone (R277 to R279). -/
def spKept (_s : State) : Option Byte := none

/-- `A & X` (R277). -/
def valSha (s : State) : Byte := s.a &&& s.x

/-- $93 SHA (n),Y. -/
def execShaIndY (n : Byte) (s : State) : Result :=
  admitted 0x93 s (unstableStore 0x93 6 (.indY n) spKept valSha s)

/-- $9F SHA hilo,Y. -/
def execShaAbsY (lo hi : Byte) (s : State) : Result :=
  admitted 0x9F s (unstableStore 0x9F 5 (.absY lo hi) spKept valSha s)

/-! ### SHX (R278) -/

/-- X (R278). -/
def valShx (s : State) : Byte := s.x

/-- $9E SHX hilo,Y. -/
def execShxAbsY (lo hi : Byte) (s : State) : Result :=
  admitted 0x9E s (unstableStore 0x9E 5 (.absY lo hi) spKept valShx s)

/-! ### SHY (R279) -/

/-- Y (R279). -/
def valShy (s : State) : Byte := s.y

/-- $9C SHY hilo,X. -/
def execShyAbsX (lo hi : Byte) (s : State) : Result :=
  admitted 0x9C s (unstableStore 0x9C 5 (.absX lo hi) spKept valShy s)

/-! ### TAS (R280) -/

/-- `A & X` (R280). -/
def valTas (s : State) : Byte := s.a &&& s.x

/-- `S <- A & X`, before the store (R280). -/
def spTas (s : State) : Option Byte := some (s.a &&& s.x)

/-- $9B TAS hilo,Y. -/
def execTasAbsY (lo hi : Byte) (s : State) : Result :=
  admitted 0x9B s (unstableStore 0x9B 5 (.absY lo hi) spTas valTas s)

/-! ### JAM (R282) -/

/-- After the opcode fetch `halted <- 1`; nothing else (R282). -/
def jamInstr (op : Byte) (s : State) : Result :=
  .next { s.beginInstr op 1 with halted := true }

/-- $02 JAM. -/
def execJam02 (s : State) : Result :=
  admitted 0x02 s (jamInstr 0x02 s)

/-- $12 JAM. -/
def execJam12 (s : State) : Result :=
  admitted 0x12 s (jamInstr 0x12 s)

/-- $22 JAM. -/
def execJam22 (s : State) : Result :=
  admitted 0x22 s (jamInstr 0x22 s)

/-- $32 JAM. -/
def execJam32 (s : State) : Result :=
  admitted 0x32 s (jamInstr 0x32 s)

/-- $42 JAM. -/
def execJam42 (s : State) : Result :=
  admitted 0x42 s (jamInstr 0x42 s)

/-- $52 JAM. -/
def execJam52 (s : State) : Result :=
  admitted 0x52 s (jamInstr 0x52 s)

/-- $62 JAM. -/
def execJam62 (s : State) : Result :=
  admitted 0x62 s (jamInstr 0x62 s)

/-- $72 JAM. -/
def execJam72 (s : State) : Result :=
  admitted 0x72 s (jamInstr 0x72 s)

/-- $92 JAM. -/
def execJam92 (s : State) : Result :=
  admitted 0x92 s (jamInstr 0x92 s)

/-- $B2 JAM. -/
def execJamB2 (s : State) : Result :=
  admitted 0xB2 s (jamInstr 0xB2 s)

/-- $D2 JAM. -/
def execJamD2 (s : State) : Result :=
  admitted 0xD2 s (jamInstr 0xD2 s)

/-- $F2 JAM. -/
def execJamF2 (s : State) : Result :=
  admitted 0xF2 s (jamInstr 0xF2 s)

end Sys2Proof.Machine
end

