-- ==== Sys2Proof/Machine/Dispatch.lean ====
section
/-! DEFINITION. One arm per opcode, each one call of its meaning: the instruction at PC executed as a whole step,
from its opcode fetch to its last bus access (R100). -/

namespace Sys2Proof.Machine

/-- Execute an instruction whose bytes stand at PC. -/
def exec (i : Instr) (s : State) : Host.Outcome State Fault Refusal :=
  match i with
  | .brk pad => Sys2Proof.Machine.execBrk pad s
  | .oraIndX n => Sys2Proof.Machine.execOraIndX n s
  | .jam02 => Sys2Proof.Machine.execJam02 s
  | .sloIndX n => Sys2Proof.Machine.execSloIndX n s
  | .nop04Zp n => Sys2Proof.Machine.execNop04Zp n s
  | .oraZp n => Sys2Proof.Machine.execOraZp n s
  | .aslZp n => Sys2Proof.Machine.execAslZp n s
  | .sloZp n => Sys2Proof.Machine.execSloZp n s
  | .php => Sys2Proof.Machine.execPhp s
  | .oraImm n => Sys2Proof.Machine.execOraImm n s
  | .aslAcc => Sys2Proof.Machine.execAslAcc s
  | .anc0BImm n => Sys2Proof.Machine.execAnc0BImm n s
  | .nop0CAbs lo hi => Sys2Proof.Machine.execNop0CAbs lo hi s
  | .oraAbs lo hi => Sys2Proof.Machine.execOraAbs lo hi s
  | .aslAbs lo hi => Sys2Proof.Machine.execAslAbs lo hi s
  | .sloAbs lo hi => Sys2Proof.Machine.execSloAbs lo hi s
  | .bpl n => Sys2Proof.Machine.execBpl n s
  | .oraIndY n => Sys2Proof.Machine.execOraIndY n s
  | .jam12 => Sys2Proof.Machine.execJam12 s
  | .sloIndY n => Sys2Proof.Machine.execSloIndY n s
  | .nop14ZpX n => Sys2Proof.Machine.execNop14ZpX n s
  | .oraZpX n => Sys2Proof.Machine.execOraZpX n s
  | .aslZpX n => Sys2Proof.Machine.execAslZpX n s
  | .sloZpX n => Sys2Proof.Machine.execSloZpX n s
  | .clc => Sys2Proof.Machine.execClc s
  | .oraAbsY lo hi => Sys2Proof.Machine.execOraAbsY lo hi s
  | .nop1A => Sys2Proof.Machine.execNop1A s
  | .sloAbsY lo hi => Sys2Proof.Machine.execSloAbsY lo hi s
  | .nop1CAbsX lo hi => Sys2Proof.Machine.execNop1CAbsX lo hi s
  | .oraAbsX lo hi => Sys2Proof.Machine.execOraAbsX lo hi s
  | .aslAbsX lo hi => Sys2Proof.Machine.execAslAbsX lo hi s
  | .sloAbsX lo hi => Sys2Proof.Machine.execSloAbsX lo hi s
  | .jsrAbs lo hi => Sys2Proof.Machine.execJsrAbs lo hi s
  | .andIndX n => Sys2Proof.Machine.execAndIndX n s
  | .jam22 => Sys2Proof.Machine.execJam22 s
  | .rlaIndX n => Sys2Proof.Machine.execRlaIndX n s
  | .bitZp n => Sys2Proof.Machine.execBitZp n s
  | .andZp n => Sys2Proof.Machine.execAndZp n s
  | .rolZp n => Sys2Proof.Machine.execRolZp n s
  | .rlaZp n => Sys2Proof.Machine.execRlaZp n s
  | .plp => Sys2Proof.Machine.execPlp s
  | .andImm n => Sys2Proof.Machine.execAndImm n s
  | .rolAcc => Sys2Proof.Machine.execRolAcc s
  | .anc2BImm n => Sys2Proof.Machine.execAnc2BImm n s
  | .bitAbs lo hi => Sys2Proof.Machine.execBitAbs lo hi s
  | .andAbs lo hi => Sys2Proof.Machine.execAndAbs lo hi s
  | .rolAbs lo hi => Sys2Proof.Machine.execRolAbs lo hi s
  | .rlaAbs lo hi => Sys2Proof.Machine.execRlaAbs lo hi s
  | .bmi n => Sys2Proof.Machine.execBmi n s
  | .andIndY n => Sys2Proof.Machine.execAndIndY n s
  | .jam32 => Sys2Proof.Machine.execJam32 s
  | .rlaIndY n => Sys2Proof.Machine.execRlaIndY n s
  | .nop34ZpX n => Sys2Proof.Machine.execNop34ZpX n s
  | .andZpX n => Sys2Proof.Machine.execAndZpX n s
  | .rolZpX n => Sys2Proof.Machine.execRolZpX n s
  | .rlaZpX n => Sys2Proof.Machine.execRlaZpX n s
  | .sec => Sys2Proof.Machine.execSec s
  | .andAbsY lo hi => Sys2Proof.Machine.execAndAbsY lo hi s
  | .nop3A => Sys2Proof.Machine.execNop3A s
  | .rlaAbsY lo hi => Sys2Proof.Machine.execRlaAbsY lo hi s
  | .nop3CAbsX lo hi => Sys2Proof.Machine.execNop3CAbsX lo hi s
  | .andAbsX lo hi => Sys2Proof.Machine.execAndAbsX lo hi s
  | .rolAbsX lo hi => Sys2Proof.Machine.execRolAbsX lo hi s
  | .rlaAbsX lo hi => Sys2Proof.Machine.execRlaAbsX lo hi s
  | .rti => Sys2Proof.Machine.execRti s
  | .eorIndX n => Sys2Proof.Machine.execEorIndX n s
  | .jam42 => Sys2Proof.Machine.execJam42 s
  | .sreIndX n => Sys2Proof.Machine.execSreIndX n s
  | .nop44Zp n => Sys2Proof.Machine.execNop44Zp n s
  | .eorZp n => Sys2Proof.Machine.execEorZp n s
  | .lsrZp n => Sys2Proof.Machine.execLsrZp n s
  | .sreZp n => Sys2Proof.Machine.execSreZp n s
  | .pha => Sys2Proof.Machine.execPha s
  | .eorImm n => Sys2Proof.Machine.execEorImm n s
  | .lsrAcc => Sys2Proof.Machine.execLsrAcc s
  | .alrImm n => Sys2Proof.Machine.execAlrImm n s
  | .jmpAbs lo hi => Sys2Proof.Machine.execJmpAbs lo hi s
  | .eorAbs lo hi => Sys2Proof.Machine.execEorAbs lo hi s
  | .lsrAbs lo hi => Sys2Proof.Machine.execLsrAbs lo hi s
  | .sreAbs lo hi => Sys2Proof.Machine.execSreAbs lo hi s
  | .bvc n => Sys2Proof.Machine.execBvc n s
  | .eorIndY n => Sys2Proof.Machine.execEorIndY n s
  | .jam52 => Sys2Proof.Machine.execJam52 s
  | .sreIndY n => Sys2Proof.Machine.execSreIndY n s
  | .nop54ZpX n => Sys2Proof.Machine.execNop54ZpX n s
  | .eorZpX n => Sys2Proof.Machine.execEorZpX n s
  | .lsrZpX n => Sys2Proof.Machine.execLsrZpX n s
  | .sreZpX n => Sys2Proof.Machine.execSreZpX n s
  | .cli => Sys2Proof.Machine.execCli s
  | .eorAbsY lo hi => Sys2Proof.Machine.execEorAbsY lo hi s
  | .nop5A => Sys2Proof.Machine.execNop5A s
  | .sreAbsY lo hi => Sys2Proof.Machine.execSreAbsY lo hi s
  | .nop5CAbsX lo hi => Sys2Proof.Machine.execNop5CAbsX lo hi s
  | .eorAbsX lo hi => Sys2Proof.Machine.execEorAbsX lo hi s
  | .lsrAbsX lo hi => Sys2Proof.Machine.execLsrAbsX lo hi s
  | .sreAbsX lo hi => Sys2Proof.Machine.execSreAbsX lo hi s
  | .rts => Sys2Proof.Machine.execRts s
  | .adcIndX n => Sys2Proof.Machine.execAdcIndX n s
  | .jam62 => Sys2Proof.Machine.execJam62 s
  | .rraIndX n => Sys2Proof.Machine.execRraIndX n s
  | .nop64Zp n => Sys2Proof.Machine.execNop64Zp n s
  | .adcZp n => Sys2Proof.Machine.execAdcZp n s
  | .rorZp n => Sys2Proof.Machine.execRorZp n s
  | .rraZp n => Sys2Proof.Machine.execRraZp n s
  | .pla => Sys2Proof.Machine.execPla s
  | .adcImm n => Sys2Proof.Machine.execAdcImm n s
  | .rorAcc => Sys2Proof.Machine.execRorAcc s
  | .arrImm n => Sys2Proof.Machine.execArrImm n s
  | .jmpInd lo hi => Sys2Proof.Machine.execJmpInd lo hi s
  | .adcAbs lo hi => Sys2Proof.Machine.execAdcAbs lo hi s
  | .rorAbs lo hi => Sys2Proof.Machine.execRorAbs lo hi s
  | .rraAbs lo hi => Sys2Proof.Machine.execRraAbs lo hi s
  | .bvs n => Sys2Proof.Machine.execBvs n s
  | .adcIndY n => Sys2Proof.Machine.execAdcIndY n s
  | .jam72 => Sys2Proof.Machine.execJam72 s
  | .rraIndY n => Sys2Proof.Machine.execRraIndY n s
  | .nop74ZpX n => Sys2Proof.Machine.execNop74ZpX n s
  | .adcZpX n => Sys2Proof.Machine.execAdcZpX n s
  | .rorZpX n => Sys2Proof.Machine.execRorZpX n s
  | .rraZpX n => Sys2Proof.Machine.execRraZpX n s
  | .sei => Sys2Proof.Machine.execSei s
  | .adcAbsY lo hi => Sys2Proof.Machine.execAdcAbsY lo hi s
  | .nop7A => Sys2Proof.Machine.execNop7A s
  | .rraAbsY lo hi => Sys2Proof.Machine.execRraAbsY lo hi s
  | .nop7CAbsX lo hi => Sys2Proof.Machine.execNop7CAbsX lo hi s
  | .adcAbsX lo hi => Sys2Proof.Machine.execAdcAbsX lo hi s
  | .rorAbsX lo hi => Sys2Proof.Machine.execRorAbsX lo hi s
  | .rraAbsX lo hi => Sys2Proof.Machine.execRraAbsX lo hi s
  | .nop80Imm n => Sys2Proof.Machine.execNop80Imm n s
  | .staIndX n => Sys2Proof.Machine.execStaIndX n s
  | .nop82Imm n => Sys2Proof.Machine.execNop82Imm n s
  | .saxIndX n => Sys2Proof.Machine.execSaxIndX n s
  | .styZp n => Sys2Proof.Machine.execStyZp n s
  | .staZp n => Sys2Proof.Machine.execStaZp n s
  | .stxZp n => Sys2Proof.Machine.execStxZp n s
  | .saxZp n => Sys2Proof.Machine.execSaxZp n s
  | .dey => Sys2Proof.Machine.execDey s
  | .nop89Imm n => Sys2Proof.Machine.execNop89Imm n s
  | .txa => Sys2Proof.Machine.execTxa s
  | .aneImm n => Sys2Proof.Machine.execAneImm n s
  | .styAbs lo hi => Sys2Proof.Machine.execStyAbs lo hi s
  | .staAbs lo hi => Sys2Proof.Machine.execStaAbs lo hi s
  | .stxAbs lo hi => Sys2Proof.Machine.execStxAbs lo hi s
  | .saxAbs lo hi => Sys2Proof.Machine.execSaxAbs lo hi s
  | .bcc n => Sys2Proof.Machine.execBcc n s
  | .staIndY n => Sys2Proof.Machine.execStaIndY n s
  | .jam92 => Sys2Proof.Machine.execJam92 s
  | .shaIndY n => Sys2Proof.Machine.execShaIndY n s
  | .styZpX n => Sys2Proof.Machine.execStyZpX n s
  | .staZpX n => Sys2Proof.Machine.execStaZpX n s
  | .stxZpY n => Sys2Proof.Machine.execStxZpY n s
  | .saxZpY n => Sys2Proof.Machine.execSaxZpY n s
  | .tya => Sys2Proof.Machine.execTya s
  | .staAbsY lo hi => Sys2Proof.Machine.execStaAbsY lo hi s
  | .txs => Sys2Proof.Machine.execTxs s
  | .tasAbsY lo hi => Sys2Proof.Machine.execTasAbsY lo hi s
  | .shyAbsX lo hi => Sys2Proof.Machine.execShyAbsX lo hi s
  | .staAbsX lo hi => Sys2Proof.Machine.execStaAbsX lo hi s
  | .shxAbsY lo hi => Sys2Proof.Machine.execShxAbsY lo hi s
  | .shaAbsY lo hi => Sys2Proof.Machine.execShaAbsY lo hi s
  | .ldyImm n => Sys2Proof.Machine.execLdyImm n s
  | .ldaIndX n => Sys2Proof.Machine.execLdaIndX n s
  | .ldxImm n => Sys2Proof.Machine.execLdxImm n s
  | .laxIndX n => Sys2Proof.Machine.execLaxIndX n s
  | .ldyZp n => Sys2Proof.Machine.execLdyZp n s
  | .ldaZp n => Sys2Proof.Machine.execLdaZp n s
  | .ldxZp n => Sys2Proof.Machine.execLdxZp n s
  | .laxZp n => Sys2Proof.Machine.execLaxZp n s
  | .tay => Sys2Proof.Machine.execTay s
  | .ldaImm n => Sys2Proof.Machine.execLdaImm n s
  | .tax => Sys2Proof.Machine.execTax s
  | .lxaImm n => Sys2Proof.Machine.execLxaImm n s
  | .ldyAbs lo hi => Sys2Proof.Machine.execLdyAbs lo hi s
  | .ldaAbs lo hi => Sys2Proof.Machine.execLdaAbs lo hi s
  | .ldxAbs lo hi => Sys2Proof.Machine.execLdxAbs lo hi s
  | .laxAbs lo hi => Sys2Proof.Machine.execLaxAbs lo hi s
  | .bcs n => Sys2Proof.Machine.execBcs n s
  | .ldaIndY n => Sys2Proof.Machine.execLdaIndY n s
  | .jamB2 => Sys2Proof.Machine.execJamB2 s
  | .laxIndY n => Sys2Proof.Machine.execLaxIndY n s
  | .ldyZpX n => Sys2Proof.Machine.execLdyZpX n s
  | .ldaZpX n => Sys2Proof.Machine.execLdaZpX n s
  | .ldxZpY n => Sys2Proof.Machine.execLdxZpY n s
  | .laxZpY n => Sys2Proof.Machine.execLaxZpY n s
  | .clv => Sys2Proof.Machine.execClv s
  | .ldaAbsY lo hi => Sys2Proof.Machine.execLdaAbsY lo hi s
  | .tsx => Sys2Proof.Machine.execTsx s
  | .lasAbsY lo hi => Sys2Proof.Machine.execLasAbsY lo hi s
  | .ldyAbsX lo hi => Sys2Proof.Machine.execLdyAbsX lo hi s
  | .ldaAbsX lo hi => Sys2Proof.Machine.execLdaAbsX lo hi s
  | .ldxAbsY lo hi => Sys2Proof.Machine.execLdxAbsY lo hi s
  | .laxAbsY lo hi => Sys2Proof.Machine.execLaxAbsY lo hi s
  | .cpyImm n => Sys2Proof.Machine.execCpyImm n s
  | .cmpIndX n => Sys2Proof.Machine.execCmpIndX n s
  | .nopC2Imm n => Sys2Proof.Machine.execNopC2Imm n s
  | .dcpIndX n => Sys2Proof.Machine.execDcpIndX n s
  | .cpyZp n => Sys2Proof.Machine.execCpyZp n s
  | .cmpZp n => Sys2Proof.Machine.execCmpZp n s
  | .decZp n => Sys2Proof.Machine.execDecZp n s
  | .dcpZp n => Sys2Proof.Machine.execDcpZp n s
  | .iny => Sys2Proof.Machine.execIny s
  | .cmpImm n => Sys2Proof.Machine.execCmpImm n s
  | .dex => Sys2Proof.Machine.execDex s
  | .sbxImm n => Sys2Proof.Machine.execSbxImm n s
  | .cpyAbs lo hi => Sys2Proof.Machine.execCpyAbs lo hi s
  | .cmpAbs lo hi => Sys2Proof.Machine.execCmpAbs lo hi s
  | .decAbs lo hi => Sys2Proof.Machine.execDecAbs lo hi s
  | .dcpAbs lo hi => Sys2Proof.Machine.execDcpAbs lo hi s
  | .bne n => Sys2Proof.Machine.execBne n s
  | .cmpIndY n => Sys2Proof.Machine.execCmpIndY n s
  | .jamD2 => Sys2Proof.Machine.execJamD2 s
  | .dcpIndY n => Sys2Proof.Machine.execDcpIndY n s
  | .nopD4ZpX n => Sys2Proof.Machine.execNopD4ZpX n s
  | .cmpZpX n => Sys2Proof.Machine.execCmpZpX n s
  | .decZpX n => Sys2Proof.Machine.execDecZpX n s
  | .dcpZpX n => Sys2Proof.Machine.execDcpZpX n s
  | .cld => Sys2Proof.Machine.execCld s
  | .cmpAbsY lo hi => Sys2Proof.Machine.execCmpAbsY lo hi s
  | .nopDA => Sys2Proof.Machine.execNopDA s
  | .dcpAbsY lo hi => Sys2Proof.Machine.execDcpAbsY lo hi s
  | .nopDCAbsX lo hi => Sys2Proof.Machine.execNopDCAbsX lo hi s
  | .cmpAbsX lo hi => Sys2Proof.Machine.execCmpAbsX lo hi s
  | .decAbsX lo hi => Sys2Proof.Machine.execDecAbsX lo hi s
  | .dcpAbsX lo hi => Sys2Proof.Machine.execDcpAbsX lo hi s
  | .cpxImm n => Sys2Proof.Machine.execCpxImm n s
  | .sbcIndX n => Sys2Proof.Machine.execSbcIndX n s
  | .nopE2Imm n => Sys2Proof.Machine.execNopE2Imm n s
  | .iscIndX n => Sys2Proof.Machine.execIscIndX n s
  | .cpxZp n => Sys2Proof.Machine.execCpxZp n s
  | .sbcZp n => Sys2Proof.Machine.execSbcZp n s
  | .incZp n => Sys2Proof.Machine.execIncZp n s
  | .iscZp n => Sys2Proof.Machine.execIscZp n s
  | .inx => Sys2Proof.Machine.execInx s
  | .sbcImm n => Sys2Proof.Machine.execSbcImm n s
  | .nop => Sys2Proof.Machine.execNop s
  | .usbcImm n => Sys2Proof.Machine.execUsbcImm n s
  | .cpxAbs lo hi => Sys2Proof.Machine.execCpxAbs lo hi s
  | .sbcAbs lo hi => Sys2Proof.Machine.execSbcAbs lo hi s
  | .incAbs lo hi => Sys2Proof.Machine.execIncAbs lo hi s
  | .iscAbs lo hi => Sys2Proof.Machine.execIscAbs lo hi s
  | .beq n => Sys2Proof.Machine.execBeq n s
  | .sbcIndY n => Sys2Proof.Machine.execSbcIndY n s
  | .jamF2 => Sys2Proof.Machine.execJamF2 s
  | .iscIndY n => Sys2Proof.Machine.execIscIndY n s
  | .nopF4ZpX n => Sys2Proof.Machine.execNopF4ZpX n s
  | .sbcZpX n => Sys2Proof.Machine.execSbcZpX n s
  | .incZpX n => Sys2Proof.Machine.execIncZpX n s
  | .iscZpX n => Sys2Proof.Machine.execIscZpX n s
  | .sed => Sys2Proof.Machine.execSed s
  | .sbcAbsY lo hi => Sys2Proof.Machine.execSbcAbsY lo hi s
  | .nopFA => Sys2Proof.Machine.execNopFA s
  | .iscAbsY lo hi => Sys2Proof.Machine.execIscAbsY lo hi s
  | .nopFCAbsX lo hi => Sys2Proof.Machine.execNopFCAbsX lo hi s
  | .sbcAbsX lo hi => Sys2Proof.Machine.execSbcAbsX lo hi s
  | .incAbsX lo hi => Sys2Proof.Machine.execIncAbsX lo hi s
  | .iscAbsX lo hi => Sys2Proof.Machine.execIscAbsX lo hi s

end Sys2Proof.Machine
end

