-- ==== Sys2Proof/WellFormed.lean ====
section
/-! DEFINITION. Which instructions are instructions of the machine. Every operand byte may hold every value and no
encoding is undefined or reserved (R80, R87), so the one check is the admission of R260. -/

namespace Sys2Proof

/-- The instruction is official, or its opcode byte is in `P_UNOFFICIAL` (R87, R260). -/
def Instr.wellFormed (p : Params) (i : Instr) : Bool :=
  i.row.official || p.unofficial.contains i.opcode

end Sys2Proof
end

