-- ==== Sys2Proof/Machine/Step.lean ====
section
/-! DEFINITION. One step of the core (R302), and the host's way to place an instruction where the next step
fetches. -/

namespace Sys2Proof.Machine

/-- `Step()` of R302: a halted core does nothing (R320); otherwise a pending NMI is serviced, else an unmasked
IRQ, each as a step of its own (R303, R304); else the instruction at PC is executed. -/
def step (s : State) : Host.Outcome State Fault Refusal :=
  if s.halted then .next s.haltedStep
  else if s.nmiPending then .next s.nmiService
  else if s.irqLine && !s.flagI then .next s.irqService
  else
    match decode s.fetchWindow with
    | .ok (i, _) => exec i s
    | .error _ => .fault .internalConsistency

/-- `s` with the bytes of a table word at PC, PC + 1 and PC + 2, ready to be fetched: those addresses are plain
memory, the core is not halted, and no interrupt comes before the instruction. -/
def State.withFetchWord (s : State) (nbits w : Nat) : State :=
  match tableWordBytes nbits w with
  | [b0, b1, b2] =>
    { s with
      mem := ((s.mem.write s.pc.toNat b0).write (s.pc + 1).toNat b1).write (s.pc + 2).toNat b2
      devices := s.devices.filter (fun d => !(d.holds s.pc || d.holds (s.pc + 1) || d.holds (s.pc + 2)))
      halted := false
      nmiPending := false
      irqLine := s.irqLine && s.flagI }
  | _ => s

end Sys2Proof.Machine
end

