-- ==== Sys2Proof/Safety.lean ====
section
/-! DEFINITION. The terms the statements are written in: the registers and flags by name, what an instruction
leaves alone, where its operand is and what it costs, what a bus trace does to memory, the invariant of every
step, and what the environment does between two steps. -/

namespace Sys2Proof.Machine

/-! ### Registers and flags by name -/

/-- The four 8-bit registers (R20). -/
inductive Reg where
  | a | x | y | sp
  deriving DecidableEq, Repr

/-- The six stored flags (R25, R26). -/
inductive Flag where
  | c | z | i | d | v | n
  deriving DecidableEq, Repr

/-- The value of a register. -/
def State.reg (s : State) : Reg → Byte
  | .a => s.a
  | .x => s.x
  | .y => s.y
  | .sp => s.sp

/-- The value of a flag. -/
def State.flag (s : State) : Flag → Bool
  | .c => s.flagC
  | .z => s.flagZ
  | .i => s.flagI
  | .d => s.flagD
  | .v => s.flagV
  | .n => s.flagN

/-- `t` has the registers of `s` but for those in `rs`, its flags but for those in `fs`, and its interrupt and
halt state, platform and parameters. -/
structure Keeps (rs : List Reg) (fs : List Flag) (s t : State) : Prop where
  regs : ∀ r, r ∉ rs → t.reg r = s.reg r
  flags : ∀ f, f ∉ fs → t.flag f = s.flag f
  nmiPending : t.nmiPending = s.nmiPending
  halted : t.halted = s.halted
  irqLine : t.irqLine = s.irqLine
  devices : t.devices = s.devices
  params : t.params = s.params

/-- Every byte of memory outside `stored` reads in `t` as it reads in `s`. -/
def KeepsMemory (stored : List Addr) (s t : State) : Prop :=
  ∀ a : Nat, (∀ e ∈ stored, e.toNat ≠ a) → t.mem.read a = s.mem.read a

/-- `v` was stored at `a`: a plain address reads `v` afterwards. -/
def Stores (a : Addr) (v : Byte) (s t : State) : Prop :=
  s.isDevice a = false → s.mem.wf = true → t.mem.read a.toNat = v

/-- N and Z are those of `v` (R30, R34). -/
def HasNZ (v : Byte) (t : State) : Prop := t.flagZ = (v == 0) ∧ t.flagN = v.getLsbD 7

/-! ### What an instruction's operand is and what the instruction costs -/

/-- `s` after the instruction's opcode fetch (R100). -/
def begun (i : Instr) (s : State) : State := s.beginInstr i.opcode i.row.cycles

/-- `M` of a class-read instruction (R103, R113). -/
def operandValue (i : Instr) (s : State) : Byte :=
  match sourceOf i with
  | some src => (readSource src (begun i s)).1
  | none => 0

/-- The address cycles of the instruction's memory operand, for its own access class (R100). -/
def targetOf (i : Instr) (s : State) : Option Target :=
  (placeOf i).map fun p => address i.row.access p (begun i s)

/-- The accesses of the instruction up to and with its address cycles: what stands in the trace when the final access
begins (R100). -/
def addressTrace (i : Instr) (s : State) : List BusEntry :=
  match targetOf i s with
  | some t => t.st.trace
  | none => []

/-- The effective address of the instruction's memory operand. -/
def operandAddr (i : Instr) (s : State) : Addr :=
  match targetOf i s with
  | some t => t.ea
  | none => 0

/-- The byte a read-modify-write instruction reads at its effective address (R115). -/
def rmwValue (i : Instr) (s : State) : Byte :=
  match targetOf i s with
  | some t => t.st.peek t.ea
  | none => 0

/-- The instruction's indexed address crosses a page (R112). -/
def crosses (i : Instr) (s : State) : Bool :=
  match targetOf i s with
  | some t => t.crossed
  | none => false

/-- The cycle count of an instruction that is no branch: its base count, and one more where its row carries the
page-crossing penalty and the address crosses (R116, R350). -/
def cycleCount (i : Instr) (s : State) : Nat :=
  i.row.cycles + (if i.row.penalty && crosses i s then 1 else 0)

/-- How many bytes an instruction of a mode has (R81, R82), the opcode byte counted. -/
def modeBytes : Mode → Nat
  | .imp | .acc => 1
  | .imm | .zp | .zpX | .zpY | .indX | .indY | .rel => 2
  | .abs | .absX | .absY | .ind => 3

/-- R117's table: the base cycle count of a mode in an access class, `none` where the table has no such entry. -/
def baseCycles : Mode → Access → Option Nat
  | .imm, .read => some 2
  | .zp, .read | .zp, .write => some 3
  | .zp, .rmw => some 5
  | .zpX, .read | .zpX, .write | .zpY, .read | .zpY, .write => some 4
  | .zpX, .rmw => some 6
  | .abs, .read | .abs, .write => some 4
  | .abs, .rmw => some 6
  | .absX, .read | .absY, .read => some 4
  | .absX, .write | .absY, .write => some 5
  | .absX, .rmw | .absY, .rmw => some 7
  | .indX, .read | .indX, .write => some 6
  | .indX, .rmw => some 8
  | .indY, .read => some 5
  | .indY, .write => some 6
  | .indY, .rmw => some 8
  | .acc, .rmw => some 2
  | _, _ => none

/-- The address after the instruction (R24). -/
def nextPc (i : Instr) (s : State) : Addr := s.pc + BitVec.ofNat 16 i.row.bytes

/-- Executing `i` completes: it answers a next state that keeps everything of `s` but the registers `rs`, the
flags `fs` and the memory bytes `stored`, in `cycleCount` cycles, and that has the property `P`. -/
def Completes (i : Instr) (s : State) (rs : List Reg) (fs : List Flag) (stored : List Addr) (P : State → Prop) : Prop :=
  ∃ t, exec i s = .next t ∧ Keeps rs fs s t ∧ KeepsMemory stored s t ∧ t.cycles = cycleCount i s ∧ P t

/-- `Completes` for an instruction after which PC is at the next instruction (R24). -/
def CompletesInLine (i : Instr) (s : State) (rs : List Reg) (fs : List Flag) (stored : List Addr)
    (P : State → Prop) : Prop :=
  Completes i s rs fs stored fun t => t.pc = nextPc i s ∧ P t

/-- The address before indexing of the instruction's memory operand (R107, R110). -/
def operandBase (i : Instr) (s : State) : Addr :=
  match targetOf i s with
  | some t => t.base
  | none => 0

/-- The bus answered `v` to a read of `a` and that was the last access of the step; a plain address answers the byte
that stands in memory after the step's writes. -/
def LastRead (a : Addr) (v : Byte) (s t : State) : Prop :=
  t.trace.getLast? = some ⟨.read, a, v⟩ ∧ (s.isDevice a = false → v = t.mem.read a.toNat)

/-- `v` was written to `a` and that was the last access of the step (R114, R115). -/
def LastWrite (a : Addr) (v : Byte) (s t : State) : Prop :=
  t.trace.getLast? = some ⟨.write, a, v⟩ ∧ Stores a v s t

/-- `v` is what memory holds at a plain address. -/
def Holds (s : State) (a : Addr) (v : Byte) : Prop := s.isDevice a = false → v = s.mem.read a.toNat

/-- `t` is `s` after an entry through the vector `vec` with the return address `ret` (R214, R305, R309): three bytes on
the stack, S three lower, I set, PC from the vector, all else kept. -/
structure Enters (b : Bool) (vec ret : Addr) (s t : State) : Prop where
  keeps : Keeps [.sp] [.i] s t
  sp : t.sp = s.sp - 3
  flagI : t.flagI = true
  memory : KeepsMemory [word 0x01 s.sp, word 0x01 (s.sp - 1), word 0x01 (s.sp - 2)] s t
  pcHigh : Stores (word 0x01 s.sp) (hiByte ret) s t
  pcLow : Stores (word 0x01 (s.sp - 1)) (loByte ret) s t
  status : Stores (word 0x01 (s.sp - 2)) (s.packP b) s t
  pc : ∃ lo hi, t.pc = word hi lo ∧ Holds s vec lo ∧ Holds s (vec + 1) hi

/-- The result and the carry out of each shift (R190 to R193), bit by bit: a left shift moves every bit up one place
and puts 0 or the old carry in bit 0; a right shift moves every bit down one and puts 0 or the old carry in
bit 7. -/
def ShiftsTo (mn : Mnemonic) (c : Bool) (v r : Byte) (c' : Bool) : Prop :=
  (mn = .asl ∧ r = BitVec.ofNat 8 (2 * v.toNat) ∧ c' = v.getLsbD 7) ∨
  (mn = .lsr ∧ r = BitVec.ofNat 8 (v.toNat / 2) ∧ c' = v.getLsbD 0) ∨
  (mn = .rol ∧ r = BitVec.ofNat 8 (2 * v.toNat + c.toNat) ∧ c' = v.getLsbD 7) ∨
  (mn = .ror ∧ r = BitVec.ofNat 8 (v.toNat / 2 + 128 * c.toNat) ∧ c' = v.getLsbD 0)

/-- What a conditional branch with the offset `n` does when its condition is `taken` (R215). -/
def Branches (i : Instr) (n : Byte) (taken : Bool) (s : State) : Prop :=
  ∃ t, exec i s = .next t ∧ Keeps [] [] s t ∧ KeepsMemory [] s t ∧
    let next := s.pc + 2
    let target := next + n.signExtend 16
    if taken then
      t.pc = target ∧ t.cycles = if hiByte target = hiByte next then 3 else 4
    else t.pc = next ∧ t.cycles = 2

/-- The effective address of R84 as a formula over the registers and a plain memory. -/
def effectiveAddress (p : Place) (s : State) : Addr :=
  match p with
  | .zp n => zext16 n
  | .zpX n => zext16 (n + s.x)
  | .zpY n => zext16 (n + s.y)
  | .abs lo hi => word hi lo
  | .absX lo hi => word hi lo + zext16 s.x
  | .absY lo hi => word hi lo + zext16 s.y
  | .indX n => word (s.mem.read (n + s.x + 1).toNat) (s.mem.read (n + s.x).toNat)
  | .indY n => word (s.mem.read (n + 1).toNat) (s.mem.read n.toNat) + zext16 s.y

/-! ### Which flags each instruction may write (R40) -/

/-- The flags that R40's row of a mnemonic does not leave blank. -/
def flagWriters : Mnemonic → List Flag
  | .lda | .ldx | .ldy | .tax | .tay | .txa | .tya | .tsx | .pla | .and | .ora | .eor | .inc | .dec | .inx | .iny
  | .dex | .dey => [.n, .z]
  | .adc | .sbc => [.n, .v, .z, .c]
  | .cmp | .cpx | .cpy => [.n, .z, .c]
  | .bit => [.n, .v, .z]
  | .asl | .lsr | .rol | .ror => [.n, .z, .c]
  | .clc | .sec => [.c]
  | .cld | .sed => [.d]
  | .cli | .sei => [.i]
  | .clv => [.v]
  | .plp | .rti => [.n, .v, .d, .i, .z, .c]
  | .brk => [.i]
  | .sta | .stx | .sty | .txs | .pha | .php | .jmp | .jsr | .rts | .nop => []
  | .bcc | .bcs | .beq | .bne | .bmi | .bpl | .bvc | .bvs => []
  | .slo | .rla | .sre | .dcp | .anc | .alr | .sbx => [.n, .z, .c]
  | .rra | .isc | .usbc | .arr => [.n, .v, .z, .c]
  | .lax | .las | .ane | .lxa => [.n, .z]
  | .sax | .sha | .shx | .shy | .tas | .nopStar | .jam => []

/-! ### What a bus trace does to memory (R63) -/

/-- Memory after the accesses of a trace, one at a time and in order (R63), or `none` where a read of a plain
address is not answered with the byte that stands there at that moment. -/
def replay (s : State) : Memory → List BusEntry → Option Memory
  | m, [] => some m
  | m, e :: es =>
    match e.kind with
    | .read => if s.isDevice e.addr || e.value == m.read e.addr.toNat then replay s m es else none
    | .write => replay s (if s.isDevice e.addr then m else m.write e.addr.toNat e.value) es

/-- The accesses a refused step performed before it refused (R10). -/
def Refusal.trace : Refusal → List BusEntry
  | .unimplementedOpcode _ left => left.trace
  | .unstableOpcode _ trace _ => trace
  | _ => []

/-- The pointer reads of a mode (R108 to R110). -/
def pointerReads : Mode → Nat
  | .ind | .indX | .indY => 2
  | .imp | .acc | .imm | .zp | .zpX | .zpY | .abs | .absX | .absY | .rel => 0

/-- The final accesses of an access class that are no dummy accesses (R113 to R115): none where the operand is the
fetched byte of immediate mode or the accumulator. -/
def finalAccesses : Access → Mode → Nat
  | .none, _ | .read, .imm | .rmw, .acc => 0
  | .read, _ | .write, _ => 1
  | .rmw, _ => 2

/-- The bus accesses of an instruction that are no dummy accesses, which R119 leaves: its fetches, its pointer reads and
its final accesses, or the fetches, stack accesses and other reads of R200 to R203 and R211 to R214. -/
def architecturalAccesses (i : Instr) : Nat :=
  match i.mnemonic with
  | .pha | .php | .pla | .plp => 2
  | .rts => 3
  | .rti => 4
  | .jsr => 5
  | .brk => 6
  | _ => i.row.bytes + pointerReads i.row.mode + finalAccesses i.row.access i.row.mode

/-! ### Safe states -/

/-- The invariant of every step: memory is in canonical form, and the last step's outputs fit each other: 1 to 8
cycles (R117, R305, R320, R340), and no more bus accesses than cycles (R118, R119, R341). -/
structure Inv (s : State) : Prop where
  memory : s.mem.wf = true
  traceFits : s.trace.length ≤ s.cycles
  cyclesLow : 1 ≤ s.cycles
  cyclesHigh : s.cycles ≤ 8

/-- What the environment does between two steps (R13, R306, R307, R340). -/
inductive Event where
  | nmiEdge
  | irqLine (level : Bool)
  | reset
  deriving DecidableEq, Repr

/-- The state after an event. -/
def State.after (e : Event) (s : State) : State :=
  match e with
  | .nmiEdge => s.nmiEdge
  | .irqLine level => s.setIrqLine level
  | .reset => s.resetSequence

end Sys2Proof.Machine
end

