-- ==== Sys2Proof/Certificates/Slice0/Obligations.lean ====
section
/-! DEFINITION. The statements for the provers. Each says in its docstring which rule of spec/ it formalises. -/

open Sys2Proof Sys2Proof.Machine

/-! ### Encoding -/

/-- Words written out from the encodings of R89 and of the instruction rules decode to their instructions. -/
def Obligations.SpecWordsDecode : Prop :=
  decode [0xA9, 0x00] = .ok (.ldaImm 0x00, []) ∧
  decode [0x8D, 0x10, 0x00] = .ok (.staAbs 0x10 0x00, []) ∧
  decode [0xAA] = .ok (.tax, []) ∧
  decode [0xF1, 0x20] = .ok (.sbcIndY 0x20, []) ∧
  decode [0xFE, 0x00, 0x02] = .ok (.incAbsX 0x00 0x02, []) ∧
  decode [0x66, 0x10] = .ok (.rorZp 0x10, []) ∧
  decode [0x28] = .ok (.plp, []) ∧
  decode [0x6C, 0xFF, 0x10] = .ok (.jmpInd 0xFF 0x10, []) ∧
  decode [0x00, 0xEA] = .ok (.brk 0xEA, []) ∧
  decode [0x90, 0x02] = .ok (.bcc 0x02, []) ∧
  decode [0x78] = .ok (.sei, []) ∧
  decode [0x9B, 0x00, 0x07] = .ok (.tasAbsY 0x00 0x07, []) ∧
  decode [0xF2] = .ok (.jamF2, [])

/-- Decode and encode are inverse: a list of bytes decodes to `i` and leaves `rest` exactly when it is `i`'s bytes
followed by `rest` (R80, R81, R89). -/
def Obligations.DecodeEncodeInverse : Prop :=
  ∀ (bytes rest : List Byte) (i : Instr), decode bytes = .ok (i, rest) ↔ bytes = encode i ++ rest

/-- R82: the opcode byte alone gives the length, 1, 2 or 3 by its mode (BRK, of which R83 says that it takes 2
bytes, is the one exception), and R87: every opcode byte decodes. -/
def Obligations.EveryOpcodeDecodesWithItsLength : Prop :=
  ∀ (op n m : Byte) (rest : List Byte), ∃ i rest',
    decode (op :: n :: m :: rest) = .ok (i, rest') ∧ i.opcode = op ∧
    (encode i).length = if op = 0x00 then 2 else modeBytes (rowOf op).mode

/-! ### The step -/

/-- When the bytes at PC decode to `i`, and the core is not halted and takes no interrupt, the step is `exec i`:
this machine's step adds nothing around it (R100, R302). -/
def Obligations.StepRunsDecodedInstruction : Prop :=
  ∀ (s : State) (i : Instr) (rest : List Byte), s.halted = false → s.nmiPending = false →
    (s.irqLine = false ∨ s.flagI = true) → decode s.fetchWindow = .ok (i, rest) → step s = exec i s

/-- The bytes a step decodes are those that stand in memory at PC, PC + 1 and PC + 2, wrapping at $FFFF, as the last
write left them (R24, R66, R80). -/
def Obligations.FetchWindowIsMemoryAtPc : Prop :=
  ∀ s : State, s.isDevice s.pc = false → s.isDevice (s.pc + 1) = false → s.isDevice (s.pc + 2) = false →
    s.fetchWindow = [s.mem.read s.pc.toNat, s.mem.read (s.pc + 1).toNat, s.mem.read (s.pc + 2).toNat]

/-- R302: halted, else NMI, else unmasked IRQ, else the instruction at PC, which always decodes (R87). That the outcome
`Halted` is a next state is the model's choice (notes/assumptions/11). -/
def Obligations.StepChecksInOrder : Prop :=
  ∀ s : State,
    (s.halted = true → step s = .next { s with trace := [], cycles := 1 }) ∧
    (s.halted = false → s.nmiPending = true →
      step s = .next ({ s with nmiPending := false }.interruptService 0xFFFA)) ∧
    (s.halted = false → s.nmiPending = false → s.irqLine = true → s.flagI = false →
      step s = .next (s.interruptService 0xFFFE)) ∧
    (s.halted = false → s.nmiPending = false → (s.irqLine = false ∨ s.flagI = true) →
      ∃ i rest, decode s.fetchWindow = .ok (i, rest) ∧ step s = exec i s)

/-- R300: no step, of any state, ends in a fault. -/
def Obligations.NoStepFaults : Prop := ∀ (s : State) (f : Fault), step s ≠ .fault f

/-- R260 and R284: an instruction is refused exactly when its opcode is unofficial and outside `P_UNOFFICIAL`, or it is
one of the four high-byte AND stores, crosses a page and `P_SH_CROSS = Refuse`. R10: the first leaves the state as the
opcode fetch leaves it; the second leaves the accesses of its address cycles in its trace and gives no register but
the S that TAS has written (R280). -/
def Obligations.RefusedExactlyWhen : Prop :=
  ∀ (i : Instr) (s : State) (r : Refusal), exec i s = .refused r ↔
    (i.wellFormed s.params = false ∧ r = .unimplementedOpcode i.opcode
      { s with
        pc := s.pc + 1
        trace := [⟨.read, s.pc, i.opcode⟩]
        draws := if s.isDevice s.pc then s.draws + 1 else s.draws }) ∨
    (i.wellFormed s.params = true ∧ i.mnemonic ∈ [.sha, .shx, .shy, .tas] ∧ crosses i s = true ∧
      s.params.shCross = .refuse ∧
      r = .unstableOpcode i.opcode (addressTrace i s) (if i.mnemonic = .tas then some (s.a &&& s.x) else none))

/-- Every instruction completes: a well-formed one answers a next state, unless it is a high-byte AND store that
crosses a page under `P_SH_CROSS = Refuse` (R10, R87). That a JAM, whose outcome R10 calls `Halted` and not `Done`,
answers a next state too is the model's choice (notes/assumptions/11). -/
def Obligations.WellFormedInstructionsComplete : Prop :=
  ∀ (i : Instr) (s : State), i.wellFormed s.params = true →
    (i.mnemonic ∈ [.sha, .shx, .shy, .tas] → crosses i s = true → s.params.shCross = .formula) →
    ∃ t, exec i s = .next t

/-- R24: after an instruction that transfers no control, PC is its old value plus the instruction's length. -/
def Obligations.PcAdvancesByLength : Prop :=
  ∀ (i : Instr) (s t : State), exec i s = .next t →
    i.mnemonic ∉ [.jmp, .jsr, .rts, .rti, .brk, .bcc, .bcs, .beq, .bne, .bmi, .bpl, .bvc, .bvs] →
    t.pc = s.pc + BitVec.ofNat 16 (encode i).length

/-- R40: an instruction changes no flag that its row of the flag-writer table leaves blank. -/
def Obligations.BlankFlagsStay : Prop :=
  ∀ (i : Instr) (s t : State), exec i s = .next t → ∀ f, f ∉ flagWriters i.mnemonic → t.flag f = s.flag f

/-- The inputs and parameters of the core are not its own: no step changes the IRQ line (R36), the device windows or
the parameters, and only an NMI service changes `nmi_pending` (R35). That they stand in State is the model's choice
(notes/assumptions/2, 7 and 14). -/
def Obligations.StepKeepsPlatform : Prop :=
  ∀ s t : State, step s = .next t →
    t.irqLine = s.irqLine ∧ t.devices = s.devices ∧ t.params = s.params ∧
    (t.nmiPending = s.nmiPending ∨ (s.halted = false ∧ s.nmiPending = true ∧ t.nmiPending = false))

/-- R37: only a JAM opcode halts the core, and no step ends a halt. That the outcome `Halted` is a next state with
`halted` set is the model's choice (notes/assumptions/11). -/
def Obligations.OnlyJamHalts : Prop :=
  ∀ s t : State, step s = .next t →
    (s.halted = true → t.halted = true) ∧
    (s.halted = false → t.halted = true →
      ∃ i rest, decode s.fetchWindow = .ok (i, rest) ∧ i.mnemonic = .jam)

/-! ### The bus -/

/-- R118: with `P_BUS_TRACE = Full` the trace of every step has as many entries as the step returns cycles, but for a
step of a halted core, which returns 1 cycle with no bus access. -/
def Obligations.TraceLengthIsCycleCount : Prop :=
  ∀ s t : State, s.params.busTrace = .full → step s = .next t →
    (s.halted = false → t.trace.length = t.cycles) ∧ (s.halted = true → t.trace = [] ∧ t.cycles = 1)

/-- R63: memory after a step is memory before it with the trace's accesses performed one at a time in the trace's
order, and every read of a plain address, the fetches among them (R66), answers the byte that stands there. A refused
step has performed reads alone, and they answer the same way (R10). That a device window leaves plain memory alone is
the model's choice (notes/assumptions/2). -/
def Obligations.TraceReplaysMemory : Prop :=
  ∀ s : State,
    (∀ t, step s = .next t → replay s s.mem t.trace = some t.mem) ∧
    ∀ r, step s = .refused r → (∀ e ∈ r.trace, e.kind = .read) ∧ replay s s.mem r.trace = some s.mem

/-- R119: on every platform, dropping the dummy accesses leaves exactly the instruction's other accesses in the trace,
as many as its row says; and on plain memory it changes no register, flag, byte of memory or cycle count, and the
trace loses entries and gains none. With a device window a dropped read changes what later reads answer (R61), so
that the two states cannot be compared there. -/
def Obligations.ArchitecturalTraceOnlyDropsDummies : Prop :=
  ∀ (i : Instr) (s t : State), exec i s = .next t →
    (s.params.busTrace = .architectural → t.trace.length = architecturalAccesses i) ∧
    (s.params.busTrace = .full → s.devices = [] → s.mem.wf = true →
      ∃ u, exec i { s with params := { s.params with busTrace := .architectural } } = .next u ∧
        u.trace.Sublist t.trace ∧
        u = { t with params := { t.params with busTrace := .architectural }, trace := u.trace })

/-- R84: the effective address of every memory operand on plain memory, and that a class-read instruction's `M` is
the byte there (R113). -/
def Obligations.EffectiveAddressOfEachMode : Prop :=
  ∀ (i : Instr) (s : State) (p : Place), s.devices = [] → placeOf i = some p →
    operandAddr i s = effectiveAddress p s ∧
    (i.row.access = .read → operandValue i s = s.mem.read (effectiveAddress p s).toNat)

/-- R116, R117: the cycle count of every instruction of the classes read, write and read-modify-write, from its mode
and class, with one more for a class-read instruction in abs,X, abs,Y or (zp),Y mode whose address crosses; and these
are the instructions whose rows carry the penalty. -/
def Obligations.CyclesByModeAndClass : Prop :=
  ∀ i : Instr,
    (i.row.penalty = true ↔ i.row.access = .read ∧ i.row.mode ∈ [.absX, .absY, .indY]) ∧
    ∀ s t : State, i.row.access ≠ .none → exec i s = .next t →
      ∃ base, baseCycles i.row.mode i.row.access = some base ∧
        t.cycles = base +
          if i.row.access = .read ∧ i.row.mode ∈ [.absX, .absY, .indY] ∧ crosses i s = true then 1 else 0

/-! ### Invariants -/

/-- Every step, and everything the environment does between two steps, keeps the invariant, from any state that
meets it. The canonical form of memory and the outputs kept in State are the model's own (notes/assumptions/1 and 7). -/
def Obligations.StepKeepsInvariant : Prop :=
  ∀ s : State, Inv s → (∀ t, step s = .next t → Inv t) ∧ ∀ e, Inv (s.after e)

/-- The invariant holds at reset. -/
def Obligations.ResetMeetsInvariant : Prop := Inv State.reset

/-! ### Loads, stores and transfers -/

/-- R140, R141, R142. -/
def Obligations.LoadsReadOperand : Prop :=
  ∀ (i : Instr) (s : State),
    (i.mnemonic = .lda → CompletesInLine i s [.a] [.n, .z] [] fun t =>
      t.a = operandValue i s ∧ HasNZ (operandValue i s) t) ∧
    (i.mnemonic = .ldx → CompletesInLine i s [.x] [.n, .z] [] fun t =>
      t.x = operandValue i s ∧ HasNZ (operandValue i s) t) ∧
    (i.mnemonic = .ldy → CompletesInLine i s [.y] [.n, .z] [] fun t =>
      t.y = operandValue i s ∧ HasNZ (operandValue i s) t)

/-- R143, R144, R145: the register goes to the effective address, and to no other; no flag changes. -/
def Obligations.StoresWriteRegister : Prop :=
  ∀ (i : Instr) (s : State) (v : Byte),
    (i.mnemonic = .sta ∧ v = s.a) ∨ (i.mnemonic = .stx ∧ v = s.x) ∨ (i.mnemonic = .sty ∧ v = s.y) →
    CompletesInLine i s [] [] [operandAddr i s] fun t => LastWrite (operandAddr i s) v s t

/-- R146 to R151. -/
def Obligations.TransfersCopyRegister : Prop :=
  ∀ s : State,
    (CompletesInLine .tax s [.x] [.n, .z] [] fun t => t.x = s.a ∧ HasNZ s.a t) ∧
    (CompletesInLine .tay s [.y] [.n, .z] [] fun t => t.y = s.a ∧ HasNZ s.a t) ∧
    (CompletesInLine .txa s [.a] [.n, .z] [] fun t => t.a = s.x ∧ HasNZ s.x t) ∧
    (CompletesInLine .tya s [.a] [.n, .z] [] fun t => t.a = s.y ∧ HasNZ s.y t) ∧
    (CompletesInLine .tsx s [.x] [.n, .z] [] fun t => t.x = s.sp ∧ HasNZ s.sp t) ∧
    (CompletesInLine .txs s [.sp] [] [] fun t => t.sp = s.x)

/-! ### Arithmetic and logic -/

/-- R160, R161: ADC adds A, `M` and C as unsigned numbers, the carry out being the 256s, and V says that the signed sum
does not fit a signed byte. -/
def Obligations.AdcAddsWithCarry : Prop :=
  ∀ (i : Instr) (s : State), i.mnemonic = .adc →
    CompletesInLine i s [.a] [.n, .v, .z, .c] [] fun t =>
      let m := operandValue i s
      let sum : Int := s.a.toInt + m.toInt + s.flagC.toNat
      t.a.toNat + 256 * t.flagC.toNat = s.a.toNat + m.toNat + s.flagC.toNat ∧
      (t.flagV = true ↔ sum < -128 ∨ 127 < sum) ∧ HasNZ t.a t

/-- R162, R274: SBC and USBC subtract `M` and the borrow 1 - C, C becomes 1 exactly when there is no borrow, and V says
that the signed difference does not fit a signed byte. -/
def Obligations.SbcSubtractsWithBorrow : Prop :=
  ∀ (i : Instr) (s : State), i.mnemonic = .sbc ∨ (i.mnemonic = .usbc ∧ s.admits i.opcode = true) →
    CompletesInLine i s [.a] [.n, .v, .z, .c] [] fun t =>
      let m := operandValue i s
      let borrow : Nat := 1 - s.flagC.toNat
      let diff : Int := s.a.toInt - m.toInt - borrow
      t.a = s.a - m - BitVec.ofNat 8 borrow ∧
      (t.flagC = true ↔ m.toNat + borrow ≤ s.a.toNat) ∧
      (t.flagV = true ↔ diff < -128 ∨ 127 < diff) ∧ HasNZ t.a t

/-- R163, R164, R165. -/
def Obligations.LogicCombinesWithA : Prop :=
  ∀ (i : Instr) (s : State) (r : Byte),
    (i.mnemonic = .and ∧ r = s.a &&& operandValue i s) ∨ (i.mnemonic = .ora ∧ r = s.a ||| operandValue i s) ∨
      (i.mnemonic = .eor ∧ r = s.a ^^^ operandValue i s) →
    CompletesInLine i s [.a] [.n, .z] [] fun t => t.a = r ∧ HasNZ r t

/-- R166 to R169: the compares write no register and leave V alone. -/
def Obligations.ComparesSetCarryUnsigned : Prop :=
  ∀ (i : Instr) (s : State) (r : Byte),
    (i.mnemonic = .cmp ∧ r = s.a) ∨ (i.mnemonic = .cpx ∧ r = s.x) ∨ (i.mnemonic = .cpy ∧ r = s.y) →
    CompletesInLine i s [] [.n, .z, .c] [] fun t =>
      let m := operandValue i s
      (t.flagC = true ↔ m.toNat ≤ r.toNat) ∧ (t.flagZ = true ↔ r = m) ∧ t.flagN = (r - m).getLsbD 7

/-- R170. -/
def Obligations.BitTestsOperand : Prop :=
  ∀ (i : Instr) (s : State), i.mnemonic = .bit →
    CompletesInLine i s [] [.n, .v, .z] [] fun t =>
      let m := operandValue i s
      t.flagZ = (s.a &&& m == 0) ∧ t.flagN = m.getLsbD 7 ∧ t.flagV = m.getLsbD 6

/-- R171, R172: INC and DEC write the byte read plus or minus one back, wrapping. -/
def Obligations.IncDecMemory : Prop :=
  ∀ (i : Instr) (s : State) (r : Byte),
    (i.mnemonic = .inc ∧ r = rmwValue i s + 1) ∨ (i.mnemonic = .dec ∧ r = rmwValue i s - 1) →
    CompletesInLine i s [] [.n, .z] [operandAddr i s] fun t =>
      LastWrite (operandAddr i s) r s t ∧ HasNZ r t

/-- R173 to R176. -/
def Obligations.IncDecRegisters : Prop :=
  ∀ s : State,
    (CompletesInLine .inx s [.x] [.n, .z] [] fun t => t.x = s.x + 1 ∧ HasNZ (s.x + 1) t) ∧
    (CompletesInLine .iny s [.y] [.n, .z] [] fun t => t.y = s.y + 1 ∧ HasNZ (s.y + 1) t) ∧
    (CompletesInLine .dex s [.x] [.n, .z] [] fun t => t.x = s.x - 1 ∧ HasNZ (s.x - 1) t) ∧
    (CompletesInLine .dey s [.y] [.n, .z] [] fun t => t.y = s.y - 1 ∧ HasNZ (s.y - 1) t)

/-- R178: D changes nothing that ADC, SBC, RRA, ISC, USBC and ARR compute. -/
def Obligations.DecimalFlagHasNoEffect : Prop :=
  ∀ (i : Instr) (s t : State) (d : Bool), i.mnemonic ∈ [.adc, .sbc, .rra, .isc, .usbc, .arr] →
    exec i s = .next t → exec i { s with flagD := d } = .next { t with flagD := d }

/-! ### Shifts and rotates -/

/-- R190 to R193 in accumulator mode. -/
def Obligations.ShiftsOfAccumulator : Prop :=
  ∀ (i : Instr) (s : State) (r : Byte) (c' : Bool), i.row.mode = .acc → ShiftsTo i.mnemonic s.flagC s.a r c' →
    CompletesInLine i s [.a] [.n, .z, .c] [] fun t => t.a = r ∧ t.flagC = c' ∧ HasNZ r t

/-- R190 to R193 in memory modes. -/
def Obligations.ShiftsOfMemory : Prop :=
  ∀ (i : Instr) (s : State) (r : Byte) (c' : Bool), i.row.mode ≠ .acc →
    ShiftsTo i.mnemonic s.flagC (rmwValue i s) r c' →
    CompletesInLine i s [] [.n, .z, .c] [operandAddr i s] fun t =>
      LastWrite (operandAddr i s) r s t ∧ t.flagC = c' ∧ HasNZ r t

/-! ### The stack -/

/-- R25, R26, R27, R28: the pushed status byte has each flag at its place, U = 1 and B as given, and pulling it back
gives the six flags. -/
def Obligations.StatusByteLayout : Prop :=
  ∀ (b : Bool) (s : State) (v : Byte),
    ((s.packP b).getLsbD 7 = s.flagN ∧ (s.packP b).getLsbD 6 = s.flagV ∧ (s.packP b).getLsbD 5 = true ∧
      (s.packP b).getLsbD 4 = b ∧ (s.packP b).getLsbD 3 = s.flagD ∧ (s.packP b).getLsbD 2 = s.flagI ∧
      (s.packP b).getLsbD 1 = s.flagZ ∧ (s.packP b).getLsbD 0 = s.flagC) ∧
    s.unpackP (s.packP b) = s ∧ (s.unpackP v).packP b = (v &&& 0xCF) ||| 0x20 ||| (if b then 0x10 else 0x00)

/-- R200, R201 (R58): the byte goes to `word($01, S)` and S is one less, wrapping in page $01. -/
def Obligations.PushesStoreBelow : Prop :=
  ∀ s : State,
    (CompletesInLine .pha s [.sp] [] [word 0x01 s.sp] fun t =>
      t.sp = s.sp - 1 ∧ LastWrite (word 0x01 s.sp) s.a s t) ∧
    (CompletesInLine .php s [.sp] [] [word 0x01 s.sp] fun t =>
      t.sp = s.sp - 1 ∧ LastWrite (word 0x01 s.sp) (s.packP true) s t)

/-- R202, R203 (R59): the byte comes from `word($01, S + 1)`; PLP ignores its bits 4 and 5. -/
def Obligations.PullsReadAbove : Prop :=
  ∀ s : State,
    (CompletesInLine .pla s [.sp, .a] [.n, .z] [] fun t =>
      t.sp = s.sp + 1 ∧ LastRead (word 0x01 (s.sp + 1)) t.a s t ∧ HasNZ t.a t) ∧
    (CompletesInLine .plp s [.sp] [.n, .v, .d, .i, .z, .c] [] fun t =>
      t.sp = s.sp + 1 ∧ ∃ v, LastRead (word 0x01 (s.sp + 1)) v s t ∧
        t.flagN = v.getLsbD 7 ∧ t.flagV = v.getLsbD 6 ∧ t.flagD = v.getLsbD 3 ∧ t.flagI = v.getLsbD 2 ∧
        t.flagZ = v.getLsbD 1 ∧ t.flagC = v.getLsbD 0)

/-! ### Jumps, calls, returns and branches -/

/-- R210 (R55): the pointer's high byte is read on the pointer's page. -/
def Obligations.JumpsLoadPc : Prop :=
  ∀ (lo hi : Byte) (s : State),
    (Completes (.jmpAbs lo hi) s [] [] [] fun t => t.pc = word hi lo) ∧
    (Completes (.jmpInd lo hi) s [] [] [] fun t =>
      ∃ l h, t.pc = word h l ∧ Holds s (word hi lo) l ∧ Holds s (word hi (lo + 1)) h)

/-- R211: JSR pushes the address of its last byte and takes the target's high byte from there after the pushes. -/
def Obligations.JsrPushesReturnAddress : Prop :=
  ∀ (lo hi : Byte) (s : State),
    Completes (.jsrAbs lo hi) s [.sp] [] [word 0x01 s.sp, word 0x01 (s.sp - 1)] fun t =>
      t.sp = s.sp - 2 ∧ Stores (word 0x01 s.sp) (hiByte (s.pc + 2)) s t ∧
      Stores (word 0x01 (s.sp - 1)) (loByte (s.pc + 2)) s t ∧
      ∃ h, t.pc = word h lo ∧ LastRead (s.pc + 2) h s t

/-- R212: RTS pulls the low then the high byte and adds one. -/
def Obligations.RtsReturnsPastPulledAddress : Prop :=
  ∀ s : State,
    Completes .rts s [.sp] [] [] fun t =>
      t.sp = s.sp + 2 ∧ ∃ lo hi, t.pc = word hi lo + 1 ∧ Holds s (word 0x01 (s.sp + 1)) lo ∧
        Holds s (word 0x01 (s.sp + 2)) hi

/-- R213, R310: RTI pulls the flags, then PC, with no adjustment. -/
def Obligations.RtiRestoresFlagsAndPc : Prop :=
  ∀ s : State,
    Completes .rti s [.sp] [.n, .v, .d, .i, .z, .c] [] fun t =>
      t.sp = s.sp + 3 ∧ ∃ p lo hi, t.pc = word hi lo ∧ Holds s (word 0x01 (s.sp + 1)) p ∧
        Holds s (word 0x01 (s.sp + 2)) lo ∧ Holds s (word 0x01 (s.sp + 3)) hi ∧
        t.flagN = p.getLsbD 7 ∧ t.flagV = p.getLsbD 6 ∧ t.flagD = p.getLsbD 3 ∧ t.flagI = p.getLsbD 2 ∧
        t.flagZ = p.getLsbD 1 ∧ t.flagC = p.getLsbD 0

/-- R214, R311: BRK enters through $FFFE with the address two past its opcode and B = 1, whatever I is. -/
def Obligations.BrkEntersHandler : Prop :=
  ∀ (pad : Byte) (s : State),
    ∃ t, exec (.brk pad) s = .next t ∧ Enters true 0xFFFE (s.pc + 2) s t ∧ t.cycles = 7

/-- R215 to R223. -/
def Obligations.BranchesOnCondition : Prop :=
  ∀ (n : Byte) (s : State),
    Branches (.bcc n) n (!s.flagC) s ∧ Branches (.bcs n) n s.flagC s ∧
    Branches (.bne n) n (!s.flagZ) s ∧ Branches (.beq n) n s.flagZ s ∧
    Branches (.bpl n) n (!s.flagN) s ∧ Branches (.bmi n) n s.flagN s ∧
    Branches (.bvc n) n (!s.flagV) s ∧ Branches (.bvs n) n s.flagV s

/-- R211, R212: RTS after JSR goes on at the byte after the JSR, with S as before (on a plain stack). -/
def Obligations.RtsUndoesJsr : Prop :=
  ∀ (lo hi : Byte) (s t : State), s.mem.wf = true → s.isDevice (word 0x01 s.sp) = false →
    s.isDevice (word 0x01 (s.sp - 1)) = false → exec (.jsrAbs lo hi) s = .next t →
    ∃ u, exec .rts t = .next u ∧ u.pc = s.pc + 3 ∧ Keeps [] [] s u

/-! ### Flag instructions and NOP -/

/-- R240 to R247. -/
def Obligations.FlagInstructionsWriteOneFlag : Prop :=
  ∀ s : State,
    (CompletesInLine .clc s [] [.c] [] fun t => t.flagC = false) ∧
    (CompletesInLine .cld s [] [.d] [] fun t => t.flagD = false) ∧
    (CompletesInLine .cli s [] [.i] [] fun t => t.flagI = false) ∧
    (CompletesInLine .clv s [] [.v] [] fun t => t.flagV = false) ∧
    (CompletesInLine .sec s [] [.c] [] fun t => t.flagC = true) ∧
    (CompletesInLine .sed s [] [.d] [] fun t => t.flagD = true) ∧
    (CompletesInLine .sei s [] [.i] [] fun t => t.flagI = true) ∧
    (CompletesInLine .nop s [] [] [] fun _ => True)

/-! ### Unofficial opcodes -/

/-- R261: NOP* changes nothing but PC; its memory forms read their effective address last. -/
def Obligations.NopStarOnlyReads : Prop :=
  ∀ (i : Instr) (s : State), i.mnemonic = .nopStar → s.admits i.opcode = true →
    CompletesInLine i s [] [] [] fun t =>
      placeOf i ≠ none → ∃ v, LastRead (operandAddr i s) v s t

/-- R262 to R265, R268, R269: the shift, rotate or increment is written back, then A takes its part. -/
def Obligations.CombinedReadModifyWrite : Prop :=
  ∀ (i : Instr) (s : State), s.admits i.opcode = true →
    let m := rmwValue i s
    (∀ r c', i.mnemonic = .slo → ShiftsTo .asl s.flagC m r c' →
      CompletesInLine i s [.a] [.n, .z, .c] [operandAddr i s] fun t =>
        LastWrite (operandAddr i s) r s t ∧ t.flagC = c' ∧ t.a = s.a ||| r ∧ HasNZ t.a t) ∧
    (∀ r c', i.mnemonic = .rla → ShiftsTo .rol s.flagC m r c' →
      CompletesInLine i s [.a] [.n, .z, .c] [operandAddr i s] fun t =>
        LastWrite (operandAddr i s) r s t ∧ t.flagC = c' ∧ t.a = s.a &&& r ∧ HasNZ t.a t) ∧
    (∀ r c', i.mnemonic = .sre → ShiftsTo .lsr s.flagC m r c' →
      CompletesInLine i s [.a] [.n, .z, .c] [operandAddr i s] fun t =>
        LastWrite (operandAddr i s) r s t ∧ t.flagC = c' ∧ t.a = s.a ^^^ r ∧ HasNZ t.a t) ∧
    (∀ r c', i.mnemonic = .rra → ShiftsTo .ror s.flagC m r c' →
      CompletesInLine i s [.a] [.n, .v, .z, .c] [operandAddr i s] fun t =>
        let sum : Int := s.a.toInt + r.toInt + c'.toNat
        LastWrite (operandAddr i s) r s t ∧
        t.a.toNat + 256 * t.flagC.toNat = s.a.toNat + r.toNat + c'.toNat ∧
        (t.flagV = true ↔ sum < -128 ∨ 127 < sum) ∧ HasNZ t.a t) ∧
    (i.mnemonic = .dcp → CompletesInLine i s [] [.n, .z, .c] [operandAddr i s] fun t =>
        let r := m - 1
        LastWrite (operandAddr i s) r s t ∧ (t.flagC = true ↔ r.toNat ≤ s.a.toNat) ∧
        (t.flagZ = true ↔ s.a = r) ∧ t.flagN = (s.a - r).getLsbD 7) ∧
    (i.mnemonic = .isc → CompletesInLine i s [.a] [.n, .v, .z, .c] [operandAddr i s] fun t =>
        let r := m + 1
        let borrow : Nat := 1 - s.flagC.toNat
        let diff : Int := s.a.toInt - r.toInt - borrow
        LastWrite (operandAddr i s) r s t ∧ t.a = s.a - r - BitVec.ofNat 8 borrow ∧
        (t.flagC = true ↔ r.toNat + borrow ≤ s.a.toNat) ∧
        (t.flagV = true ↔ diff < -128 ∨ 127 < diff) ∧ HasNZ t.a t)

/-- R266, R267, R281. -/
def Obligations.CombinedLoadAndStore : Prop :=
  ∀ (i : Instr) (s : State), s.admits i.opcode = true →
    let m := operandValue i s
    (i.mnemonic = .sax → CompletesInLine i s [] [] [operandAddr i s] fun t =>
      LastWrite (operandAddr i s) (s.a &&& s.x) s t) ∧
    (i.mnemonic = .lax → CompletesInLine i s [.a, .x] [.n, .z] [] fun t =>
      t.a = m ∧ t.x = m ∧ HasNZ m t) ∧
    (i.mnemonic = .las → CompletesInLine i s [.a, .x, .sp] [.n, .z] [] fun t =>
      t.a = m &&& s.sp ∧ t.x = m &&& s.sp ∧ t.sp = m &&& s.sp ∧ HasNZ (m &&& s.sp) t)

/-- R270 to R273. -/
def Obligations.ImmediateAluCombinations : Prop :=
  ∀ (i : Instr) (s : State), s.admits i.opcode = true →
    let m := operandValue i s
    let t0 := s.a &&& m
    (i.mnemonic = .anc → CompletesInLine i s [.a] [.n, .z, .c] [] fun t =>
      t.a = t0 ∧ t.flagC = t0.getLsbD 7 ∧ HasNZ t0 t) ∧
    (i.mnemonic = .alr → CompletesInLine i s [.a] [.n, .z, .c] [] fun t =>
      t.a = BitVec.ofNat 8 (t0.toNat / 2) ∧ t.flagC = t0.getLsbD 0 ∧ HasNZ t.a t) ∧
    (i.mnemonic = .arr → CompletesInLine i s [.a] [.n, .v, .z, .c] [] fun t =>
      t.a = BitVec.ofNat 8 (t0.toNat / 2 + 128 * s.flagC.toNat) ∧ t.flagC = t.a.getLsbD 6 ∧
      t.flagV = xor (t.a.getLsbD 6) (t.a.getLsbD 5) ∧ HasNZ t.a t) ∧
    (i.mnemonic = .sbx → CompletesInLine i s [.x] [.n, .z, .c] [] fun t =>
      t.x = (s.a &&& s.x) - m ∧ (t.flagC = true ↔ m.toNat ≤ (s.a &&& s.x).toNat) ∧ HasNZ t.x t)

/-- R275, R276, for every value of the two constants: a claim about ANE or LXA may use no value of them. -/
def Obligations.MagicConstantsStayOpen : Prop :=
  ∀ (i : Instr) (s : State), s.admits i.opcode = true →
    let m := operandValue i s
    (i.mnemonic = .ane → CompletesInLine i s [.a] [.n, .z] [] fun t =>
      t.a = (s.a ||| s.params.aneMagic) &&& s.x &&& m ∧ HasNZ t.a t) ∧
    (i.mnemonic = .lxa → CompletesInLine i s [.a, .x] [.n, .z] [] fun t =>
      t.a = (s.a ||| s.params.lxaMagic) &&& m ∧ t.x = t.a ∧ HasNZ t.a t)

/-- R277 to R280, R284: the value is AND-ed with the high byte of the base address plus one; on a crossing the
parameter decides between the replaced high byte and a refusal. TAS also writes S. -/
def Obligations.HighByteAndStores : Prop :=
  ∀ (i : Instr) (s : State) (rs : List Reg) (sp v : Byte), s.admits i.opcode = true →
    (i.mnemonic = .sha ∧ rs = [] ∧ sp = s.sp ∧ v = s.a &&& s.x) ∨ (i.mnemonic = .shx ∧ rs = [] ∧ sp = s.sp ∧ v = s.x) ∨
      (i.mnemonic = .shy ∧ rs = [] ∧ sp = s.sp ∧ v = s.y) ∨
      (i.mnemonic = .tas ∧ rs = [.sp] ∧ sp = s.a &&& s.x ∧ v = s.a &&& s.x) →
    let val := v &&& (hiByte (operandBase i s) + 1)
    let crossed := word val (loByte (operandAddr i s))
    (crosses i s = false → CompletesInLine i s rs [] [operandAddr i s] fun t =>
      t.sp = sp ∧ LastWrite (operandAddr i s) val s t) ∧
    (crosses i s = true → s.params.shCross = .formula → CompletesInLine i s rs [] [crossed] fun t =>
      t.sp = sp ∧ LastWrite crossed val s t) ∧
    (crosses i s = true → s.params.shCross = .refuse → exec i s =
      .refused (.unstableOpcode i.opcode (addressTrace i s) (if i.mnemonic = .tas then some sp else none)))

/-- R282: JAM halts after its opcode fetch, in one cycle, and changes nothing else. That the outcome `Halted` is a next
state with `halted` set is the model's choice (notes/assumptions/11). -/
def Obligations.JamHalts : Prop :=
  ∀ (i : Instr) (s : State), i.mnemonic = .jam → s.admits i.opcode = true →
    ∃ t, exec i s = .next t ∧ t.halted = true ∧ Keeps [] [] { s with halted := true } t ∧ KeepsMemory [] s t ∧
      t.pc = s.pc + 1 ∧ t.cycles = 1 ∧ t.trace = [⟨.read, s.pc, i.opcode⟩]

/-! ### Interrupts, halt and reset -/

/-- R303, R305, R309: NMI service, whatever I and the IRQ line are. -/
def Obligations.NmiIsAlwaysServiced : Prop :=
  ∀ s : State, s.halted = false → s.nmiPending = true →
    ∃ t, step s = .next t ∧ Enters false 0xFFFA s.pc { s with nmiPending := false } t ∧ t.cycles = 7

/-- R304, R305, R309: IRQ service. -/
def Obligations.IrqIsServicedWhenUnmasked : Prop :=
  ∀ s : State, s.halted = false → s.nmiPending = false → s.irqLine = true → s.flagI = false →
    ∃ t, step s = .next t ∧ Enters false 0xFFFE s.pc s t ∧ t.cycles = 7

/-- R308: when both are pending the NMI is serviced, and the IRQ is then masked by the I = 1 the service set, so the
handler's first instruction runs. -/
def Obligations.NmiGoesBeforeIrq : Prop :=
  ∀ s t : State, s.halted = false → s.nmiPending = true → s.irqLine = true → step s = .next t →
    t.nmiPending = false ∧ t.irqLine = true ∧ ∃ i rest, decode t.fetchWindow = .ok (i, rest) ∧ step t = exec i t

/-- R354: with the line asserted, the IRQ is serviced at the step after a CLI, PLP or RTI that leaves I = 0, and never
at the step after an SEI. -/
def Obligations.MaskChangesActAtOnce : Prop :=
  ∀ (i : Instr) (s t : State), s.halted = false → s.nmiPending = false → s.irqLine = true → exec i s = .next t →
    (i.mnemonic ∈ [.cli, .plp, .rti] → t.flagI = false → step t = .next (t.interruptService 0xFFFE)) ∧
    (i.mnemonic = .sei → ∃ j rest, decode t.fetchWindow = .ok (j, rest) ∧ step t = exec j t)

/-- R305, R310: an RTI executed right after an NMI or IRQ service (on a plain stack) goes on at the interrupted
instruction with every register and flag as it was. -/
def Obligations.RtiUndoesInterruptService : Prop :=
  ∀ (vec : Addr) (s : State), vec = nmiVector ∨ vec = irqVector → s.mem.wf = true →
    s.isDevice (word 0x01 s.sp) = false → s.isDevice (word 0x01 (s.sp - 1)) = false →
    s.isDevice (word 0x01 (s.sp - 2)) = false →
    ∃ u, exec .rti (s.interruptService vec) = .next u ∧ u.pc = s.pc ∧ Keeps [] [] s u

/-- R214, R310, R311: an RTI executed right after a BRK (on a plain stack) goes on two bytes past the BRK's opcode with
every register and flag, I among them, as before the BRK. -/
def Obligations.RtiUndoesBrk : Prop :=
  ∀ (pad : Byte) (s t : State), s.mem.wf = true → s.isDevice (word 0x01 s.sp) = false →
    s.isDevice (word 0x01 (s.sp - 1)) = false → s.isDevice (word 0x01 (s.sp - 2)) = false →
    exec (.brk pad) s = .next t →
    ∃ u, exec .rti t = .next u ∧ u.pc = s.pc + 2 ∧ Keeps [] [] s u

/-- R320, R306: a halted core does nothing and services nothing; an NMI edge still sets the latch, which the reset that
ends the halt clears. That the outcome `Halted` is a next state with `halted` set is the model's choice
(notes/assumptions/11). -/
def Obligations.HaltLastsUntilReset : Prop :=
  ∀ s : State, s.halted = true →
    step s = .next { s with trace := [], cycles := 1 } ∧
    s.nmiEdge.nmiPending = true ∧ step s.nmiEdge = .next { s.nmiEdge with trace := [], cycles := 1 } ∧
    s.nmiEdge.resetSequence.halted = false ∧ s.nmiEdge.resetSequence.nmiPending = false

/-- R340, R341: the full effect of `reset()`, its two bus accesses and its cycle count; the step after it executes the
instruction at the vector's target, whatever the IRQ line is. -/
def Obligations.ResetSequenceEffect : Prop :=
  ∀ s : State,
    let t := s.resetSequence
    t.halted = false ∧ t.nmiPending = false ∧ t.sp = 0xFD ∧ t.flagI = true ∧ t.cycles = 7 ∧
    Keeps [.sp] [.i] { s with halted := false, nmiPending := false } t ∧ KeepsMemory [] s t ∧
    ∃ lo hi, t.pc = word hi lo ∧ t.trace = [⟨.read, 0xFFFC, lo⟩, ⟨.read, 0xFFFD, hi⟩] ∧
      Holds s 0xFFFC lo ∧ Holds s 0xFFFD hi ∧
      ∃ i rest, decode t.fetchWindow = .ok (i, rest) ∧ step t = exec i t

/-- R39: what reset leaves, at State.reset. PC is the reset vector of an empty memory, whose bytes read as the model's
choice of notes/assumptions/1; no clause is about A, X, Y, C, Z, D, V or N, which the spec leaves open. -/
def Obligations.ResetStateValues : Prop :=
  State.reset.flagI = true ∧ State.reset.sp = 0xFD ∧ State.reset.nmiPending = false ∧ State.reset.halted = false ∧
  State.reset.pc = word (State.reset.mem.read 0xFFFD) (State.reset.mem.read 0xFFFC) ∧
  State.reset = State.powerOn.resetSequence
end

