-- ==== Sys2Proof/Laws/Decode.lean ====
section
/-! SUPPORT. What the decoder makes of each opcode byte, said once: a cell of the map, the length of its row, and that
the cell's encoding is the bytes it was given. -/

namespace Sys2Proof

/-- The cell of the opcode map for an opcode byte. -/
def cellOf (op : Byte) : Byte → Byte → Instr :=
  (decodeMap.getD (op.toNat / 16) []).getD (op.toNat % 16) (fun n _ => .brk n)

/-- A cell of the opcode map agrees with its row and with the encoder. -/
def CellFits (op : Byte) (f : Byte → Byte → Instr) : Prop :=
  (∀ n m, instrOf op n m = .ok (f n m)) ∧
    ((rowOf op).bytes = 1 ∧ (∀ n m, encode (f n m) = [op]) ∨
      (rowOf op).bytes = 2 ∧ (∀ n m, encode (f n m) = [op, n]) ∨
      (rowOf op).bytes = 3 ∧ (∀ n m, encode (f n m) = [op, n, m]))

theorem cell_fits (op : Byte) : CellFits op (cellOf op) := by
  obtain ⟨k, hk, rfl⟩ : ∃ k : Nat, k < 256 ∧ op = BitVec.ofNat 8 k := ⟨op.toNat, op.isLt, by simp⟩
  interval_cases k <;>
    first
    | exact ⟨fun _ _ => rfl, .inl ⟨rfl, fun _ _ => rfl⟩⟩
    | exact ⟨fun _ _ => rfl, .inr (.inl ⟨rfl, fun _ _ => rfl⟩)⟩
    | exact ⟨fun _ _ => rfl, .inr (.inr ⟨rfl, fun _ _ => rfl⟩)⟩

/-- Every opcode byte has a cell (R87). -/
theorem instrOf_cell (op : Byte) : ∃ f, CellFits op f := ⟨cellOf op, cell_fits op⟩

/-- Three bytes always decode (R87). -/
theorem decode_three (op n m : Byte) (rest : List Byte) : ∃ i rest', decode (op :: n :: m :: rest) = .ok (i, rest') := by
  obtain ⟨f, hf, ⟨hb, -⟩ | ⟨hb, -⟩ | ⟨hb, -⟩⟩ := instrOf_cell op <;> simp only [decode, hb, hf, Except.map] <;>
    exact ⟨_, _, rfl⟩

/-- The first byte decoded is the instruction's opcode. -/
theorem decode_head {bytes rest : List Byte} {i : Instr} (h : decode bytes = .ok (i, rest)) :
    bytes.head? = some i.opcode := by
  cases bytes with
  | nil => cases h
  | cons op bs =>
    obtain ⟨f, hf, ⟨hb, he⟩ | ⟨hb, he⟩ | ⟨hb, he⟩⟩ := instrOf_cell op
    · simp only [decode, hb, hf, Except.map] at h
      cases h; simp [Instr.opcode, he]
    · cases bs <;> simp only [decode, hb, hf, Except.map] at h <;> cases h
      simp [Instr.opcode, he]
    · rcases bs with _ | ⟨b, _ | ⟨c, bs⟩⟩ <;> simp only [decode, hb, hf, Except.map] at h <;> cases h
      simp [Instr.opcode, he]

/-- An instruction's row is its opcode's row of the table. -/
theorem row_eq (i : Instr) : i.row = rowOf i.opcode := by cases i <;> rfl

end Sys2Proof
end

