-- ==== Sys2Proof/Laws/State.lean ====
section
/-! SUPPORT. One lemma per field per update of State: what the update leaves there. Every proof rewrites with
these and unfolds no record update. -/

namespace Sys2Proof.Machine

/-! ### Reads -/

@[simp] theorem State.busRead_fst (a : Addr) (s : State) : (s.busRead a).1 = s.peek a := rfl
@[simp] theorem State.busRead_snd (a : Addr) (s : State) : (s.busRead a).2 = s.logRead a (s.peek a) := rfl
@[simp] theorem State.fetchByte_fst (s : State) : s.fetchByte.1 = s.peek s.pc := rfl
@[simp] theorem State.fetchByte_snd (s : State) : s.fetchByte.2 = s.fetched (s.peek s.pc) := rfl
@[simp] theorem State.pull_fst (s : State) : s.pull.1 = s.peek (word 0x01 (s.sp + 1)) := rfl

/-- A plain address reads its byte of memory. -/
theorem State.peek_plain {s : State} {a : Addr} (h : s.isDevice a = false) : s.peek a = s.mem.read a.toNat := by
  simp [State.peek, h]

/-! ### setNZ -/

@[simp] theorem State.setNZ_a (v : Byte) (s : State) : (s.setNZ v).a = s.a := rfl
@[simp] theorem State.setNZ_x (v : Byte) (s : State) : (s.setNZ v).x = s.x := rfl
@[simp] theorem State.setNZ_y (v : Byte) (s : State) : (s.setNZ v).y = s.y := rfl
@[simp] theorem State.setNZ_sp (v : Byte) (s : State) : (s.setNZ v).sp = s.sp := rfl
@[simp] theorem State.setNZ_pc (v : Byte) (s : State) : (s.setNZ v).pc = s.pc := rfl
@[simp] theorem State.setNZ_flagC (v : Byte) (s : State) : (s.setNZ v).flagC = s.flagC := rfl
@[simp] theorem State.setNZ_flagZ (v : Byte) (s : State) : (s.setNZ v).flagZ = (v == 0) := rfl
@[simp] theorem State.setNZ_flagI (v : Byte) (s : State) : (s.setNZ v).flagI = s.flagI := rfl
@[simp] theorem State.setNZ_flagD (v : Byte) (s : State) : (s.setNZ v).flagD = s.flagD := rfl
@[simp] theorem State.setNZ_flagV (v : Byte) (s : State) : (s.setNZ v).flagV = s.flagV := rfl
@[simp] theorem State.setNZ_flagN (v : Byte) (s : State) : (s.setNZ v).flagN = v.msb := rfl
@[simp] theorem State.setNZ_nmiPending (v : Byte) (s : State) : (s.setNZ v).nmiPending = s.nmiPending := rfl
@[simp] theorem State.setNZ_halted (v : Byte) (s : State) : (s.setNZ v).halted = s.halted := rfl
@[simp] theorem State.setNZ_irqLine (v : Byte) (s : State) : (s.setNZ v).irqLine = s.irqLine := rfl
@[simp] theorem State.setNZ_mem (v : Byte) (s : State) : (s.setNZ v).mem = s.mem := rfl
@[simp] theorem State.setNZ_devices (v : Byte) (s : State) : (s.setNZ v).devices = s.devices := rfl
@[simp] theorem State.setNZ_draws (v : Byte) (s : State) : (s.setNZ v).draws = s.draws := rfl
@[simp] theorem State.setNZ_params (v : Byte) (s : State) : (s.setNZ v).params = s.params := rfl
@[simp] theorem State.setNZ_cycles (v : Byte) (s : State) : (s.setNZ v).cycles = s.cycles := rfl
@[simp] theorem State.setNZ_trace (v : Byte) (s : State) : (s.setNZ v).trace = s.trace := rfl
@[simp] theorem State.setNZ_isDevice (v : Byte) (s : State) (d : Addr) : (s.setNZ v).isDevice d = s.isDevice d := by simp [State.isDevice]

/-! ### loadA -/

@[simp] theorem State.loadA_a (v : Byte) (s : State) : (s.loadA v).a = v := rfl
@[simp] theorem State.loadA_x (v : Byte) (s : State) : (s.loadA v).x = s.x := rfl
@[simp] theorem State.loadA_y (v : Byte) (s : State) : (s.loadA v).y = s.y := rfl
@[simp] theorem State.loadA_sp (v : Byte) (s : State) : (s.loadA v).sp = s.sp := rfl
@[simp] theorem State.loadA_pc (v : Byte) (s : State) : (s.loadA v).pc = s.pc := rfl
@[simp] theorem State.loadA_flagC (v : Byte) (s : State) : (s.loadA v).flagC = s.flagC := rfl
@[simp] theorem State.loadA_flagZ (v : Byte) (s : State) : (s.loadA v).flagZ = (v == 0) := rfl
@[simp] theorem State.loadA_flagI (v : Byte) (s : State) : (s.loadA v).flagI = s.flagI := rfl
@[simp] theorem State.loadA_flagD (v : Byte) (s : State) : (s.loadA v).flagD = s.flagD := rfl
@[simp] theorem State.loadA_flagV (v : Byte) (s : State) : (s.loadA v).flagV = s.flagV := rfl
@[simp] theorem State.loadA_flagN (v : Byte) (s : State) : (s.loadA v).flagN = v.msb := rfl
@[simp] theorem State.loadA_nmiPending (v : Byte) (s : State) : (s.loadA v).nmiPending = s.nmiPending := rfl
@[simp] theorem State.loadA_halted (v : Byte) (s : State) : (s.loadA v).halted = s.halted := rfl
@[simp] theorem State.loadA_irqLine (v : Byte) (s : State) : (s.loadA v).irqLine = s.irqLine := rfl
@[simp] theorem State.loadA_mem (v : Byte) (s : State) : (s.loadA v).mem = s.mem := rfl
@[simp] theorem State.loadA_devices (v : Byte) (s : State) : (s.loadA v).devices = s.devices := rfl
@[simp] theorem State.loadA_draws (v : Byte) (s : State) : (s.loadA v).draws = s.draws := rfl
@[simp] theorem State.loadA_params (v : Byte) (s : State) : (s.loadA v).params = s.params := rfl
@[simp] theorem State.loadA_cycles (v : Byte) (s : State) : (s.loadA v).cycles = s.cycles := rfl
@[simp] theorem State.loadA_trace (v : Byte) (s : State) : (s.loadA v).trace = s.trace := rfl
@[simp] theorem State.loadA_isDevice (v : Byte) (s : State) (d : Addr) : (s.loadA v).isDevice d = s.isDevice d := by simp [State.isDevice]

/-! ### loadX -/

@[simp] theorem State.loadX_a (v : Byte) (s : State) : (s.loadX v).a = s.a := rfl
@[simp] theorem State.loadX_x (v : Byte) (s : State) : (s.loadX v).x = v := rfl
@[simp] theorem State.loadX_y (v : Byte) (s : State) : (s.loadX v).y = s.y := rfl
@[simp] theorem State.loadX_sp (v : Byte) (s : State) : (s.loadX v).sp = s.sp := rfl
@[simp] theorem State.loadX_pc (v : Byte) (s : State) : (s.loadX v).pc = s.pc := rfl
@[simp] theorem State.loadX_flagC (v : Byte) (s : State) : (s.loadX v).flagC = s.flagC := rfl
@[simp] theorem State.loadX_flagZ (v : Byte) (s : State) : (s.loadX v).flagZ = (v == 0) := rfl
@[simp] theorem State.loadX_flagI (v : Byte) (s : State) : (s.loadX v).flagI = s.flagI := rfl
@[simp] theorem State.loadX_flagD (v : Byte) (s : State) : (s.loadX v).flagD = s.flagD := rfl
@[simp] theorem State.loadX_flagV (v : Byte) (s : State) : (s.loadX v).flagV = s.flagV := rfl
@[simp] theorem State.loadX_flagN (v : Byte) (s : State) : (s.loadX v).flagN = v.msb := rfl
@[simp] theorem State.loadX_nmiPending (v : Byte) (s : State) : (s.loadX v).nmiPending = s.nmiPending := rfl
@[simp] theorem State.loadX_halted (v : Byte) (s : State) : (s.loadX v).halted = s.halted := rfl
@[simp] theorem State.loadX_irqLine (v : Byte) (s : State) : (s.loadX v).irqLine = s.irqLine := rfl
@[simp] theorem State.loadX_mem (v : Byte) (s : State) : (s.loadX v).mem = s.mem := rfl
@[simp] theorem State.loadX_devices (v : Byte) (s : State) : (s.loadX v).devices = s.devices := rfl
@[simp] theorem State.loadX_draws (v : Byte) (s : State) : (s.loadX v).draws = s.draws := rfl
@[simp] theorem State.loadX_params (v : Byte) (s : State) : (s.loadX v).params = s.params := rfl
@[simp] theorem State.loadX_cycles (v : Byte) (s : State) : (s.loadX v).cycles = s.cycles := rfl
@[simp] theorem State.loadX_trace (v : Byte) (s : State) : (s.loadX v).trace = s.trace := rfl
@[simp] theorem State.loadX_isDevice (v : Byte) (s : State) (d : Addr) : (s.loadX v).isDevice d = s.isDevice d := by simp [State.isDevice]

/-! ### loadY -/

@[simp] theorem State.loadY_a (v : Byte) (s : State) : (s.loadY v).a = s.a := rfl
@[simp] theorem State.loadY_x (v : Byte) (s : State) : (s.loadY v).x = s.x := rfl
@[simp] theorem State.loadY_y (v : Byte) (s : State) : (s.loadY v).y = v := rfl
@[simp] theorem State.loadY_sp (v : Byte) (s : State) : (s.loadY v).sp = s.sp := rfl
@[simp] theorem State.loadY_pc (v : Byte) (s : State) : (s.loadY v).pc = s.pc := rfl
@[simp] theorem State.loadY_flagC (v : Byte) (s : State) : (s.loadY v).flagC = s.flagC := rfl
@[simp] theorem State.loadY_flagZ (v : Byte) (s : State) : (s.loadY v).flagZ = (v == 0) := rfl
@[simp] theorem State.loadY_flagI (v : Byte) (s : State) : (s.loadY v).flagI = s.flagI := rfl
@[simp] theorem State.loadY_flagD (v : Byte) (s : State) : (s.loadY v).flagD = s.flagD := rfl
@[simp] theorem State.loadY_flagV (v : Byte) (s : State) : (s.loadY v).flagV = s.flagV := rfl
@[simp] theorem State.loadY_flagN (v : Byte) (s : State) : (s.loadY v).flagN = v.msb := rfl
@[simp] theorem State.loadY_nmiPending (v : Byte) (s : State) : (s.loadY v).nmiPending = s.nmiPending := rfl
@[simp] theorem State.loadY_halted (v : Byte) (s : State) : (s.loadY v).halted = s.halted := rfl
@[simp] theorem State.loadY_irqLine (v : Byte) (s : State) : (s.loadY v).irqLine = s.irqLine := rfl
@[simp] theorem State.loadY_mem (v : Byte) (s : State) : (s.loadY v).mem = s.mem := rfl
@[simp] theorem State.loadY_devices (v : Byte) (s : State) : (s.loadY v).devices = s.devices := rfl
@[simp] theorem State.loadY_draws (v : Byte) (s : State) : (s.loadY v).draws = s.draws := rfl
@[simp] theorem State.loadY_params (v : Byte) (s : State) : (s.loadY v).params = s.params := rfl
@[simp] theorem State.loadY_cycles (v : Byte) (s : State) : (s.loadY v).cycles = s.cycles := rfl
@[simp] theorem State.loadY_trace (v : Byte) (s : State) : (s.loadY v).trace = s.trace := rfl
@[simp] theorem State.loadY_isDevice (v : Byte) (s : State) (d : Addr) : (s.loadY v).isDevice d = s.isDevice d := by simp [State.isDevice]

/-! ### unpackP -/

@[simp] theorem State.unpackP_a (v : Byte) (s : State) : (s.unpackP v).a = s.a := rfl
@[simp] theorem State.unpackP_x (v : Byte) (s : State) : (s.unpackP v).x = s.x := rfl
@[simp] theorem State.unpackP_y (v : Byte) (s : State) : (s.unpackP v).y = s.y := rfl
@[simp] theorem State.unpackP_sp (v : Byte) (s : State) : (s.unpackP v).sp = s.sp := rfl
@[simp] theorem State.unpackP_pc (v : Byte) (s : State) : (s.unpackP v).pc = s.pc := rfl
@[simp] theorem State.unpackP_flagC (v : Byte) (s : State) : (s.unpackP v).flagC = v.getLsbD 0 := rfl
@[simp] theorem State.unpackP_flagZ (v : Byte) (s : State) : (s.unpackP v).flagZ = v.getLsbD 1 := rfl
@[simp] theorem State.unpackP_flagI (v : Byte) (s : State) : (s.unpackP v).flagI = v.getLsbD 2 := rfl
@[simp] theorem State.unpackP_flagD (v : Byte) (s : State) : (s.unpackP v).flagD = v.getLsbD 3 := rfl
@[simp] theorem State.unpackP_flagV (v : Byte) (s : State) : (s.unpackP v).flagV = v.getLsbD 6 := rfl
@[simp] theorem State.unpackP_flagN (v : Byte) (s : State) : (s.unpackP v).flagN = v.getLsbD 7 := rfl
@[simp] theorem State.unpackP_nmiPending (v : Byte) (s : State) : (s.unpackP v).nmiPending = s.nmiPending := rfl
@[simp] theorem State.unpackP_halted (v : Byte) (s : State) : (s.unpackP v).halted = s.halted := rfl
@[simp] theorem State.unpackP_irqLine (v : Byte) (s : State) : (s.unpackP v).irqLine = s.irqLine := rfl
@[simp] theorem State.unpackP_mem (v : Byte) (s : State) : (s.unpackP v).mem = s.mem := rfl
@[simp] theorem State.unpackP_devices (v : Byte) (s : State) : (s.unpackP v).devices = s.devices := rfl
@[simp] theorem State.unpackP_draws (v : Byte) (s : State) : (s.unpackP v).draws = s.draws := rfl
@[simp] theorem State.unpackP_params (v : Byte) (s : State) : (s.unpackP v).params = s.params := rfl
@[simp] theorem State.unpackP_cycles (v : Byte) (s : State) : (s.unpackP v).cycles = s.cycles := rfl
@[simp] theorem State.unpackP_trace (v : Byte) (s : State) : (s.unpackP v).trace = s.trace := rfl
@[simp] theorem State.unpackP_isDevice (v : Byte) (s : State) (d : Addr) : (s.unpackP v).isDevice d = s.isDevice d := by simp [State.isDevice]

/-! ### addCore -/

@[simp] theorem State.addCore_a (a m : Byte) (c : Bool) (s : State) : (s.addCore a m c).a = (sum9 a m c).setWidth 8 := rfl
@[simp] theorem State.addCore_x (a m : Byte) (c : Bool) (s : State) : (s.addCore a m c).x = s.x := rfl
@[simp] theorem State.addCore_y (a m : Byte) (c : Bool) (s : State) : (s.addCore a m c).y = s.y := rfl
@[simp] theorem State.addCore_sp (a m : Byte) (c : Bool) (s : State) : (s.addCore a m c).sp = s.sp := rfl
@[simp] theorem State.addCore_pc (a m : Byte) (c : Bool) (s : State) : (s.addCore a m c).pc = s.pc := rfl
@[simp] theorem State.addCore_flagC (a m : Byte) (c : Bool) (s : State) : (s.addCore a m c).flagC = (sum9 a m c).getLsbD 8 := rfl
@[simp] theorem State.addCore_flagZ (a m : Byte) (c : Bool) (s : State) : (s.addCore a m c).flagZ = ((sum9 a m c).setWidth 8 == (0 : Byte)) := rfl
@[simp] theorem State.addCore_flagI (a m : Byte) (c : Bool) (s : State) : (s.addCore a m c).flagI = s.flagI := rfl
@[simp] theorem State.addCore_flagD (a m : Byte) (c : Bool) (s : State) : (s.addCore a m c).flagD = s.flagD := rfl
@[simp] theorem State.addCore_flagV (a m : Byte) (c : Bool) (s : State) : (s.addCore a m c).flagV = ((a ^^^ (sum9 a m c).setWidth 8) &&& (m ^^^ (sum9 a m c).setWidth 8)).msb := rfl
@[simp] theorem State.addCore_flagN (a m : Byte) (c : Bool) (s : State) : (s.addCore a m c).flagN = ((sum9 a m c).setWidth 8 : Byte).msb := rfl
@[simp] theorem State.addCore_nmiPending (a m : Byte) (c : Bool) (s : State) : (s.addCore a m c).nmiPending = s.nmiPending := rfl
@[simp] theorem State.addCore_halted (a m : Byte) (c : Bool) (s : State) : (s.addCore a m c).halted = s.halted := rfl
@[simp] theorem State.addCore_irqLine (a m : Byte) (c : Bool) (s : State) : (s.addCore a m c).irqLine = s.irqLine := rfl
@[simp] theorem State.addCore_mem (a m : Byte) (c : Bool) (s : State) : (s.addCore a m c).mem = s.mem := rfl
@[simp] theorem State.addCore_devices (a m : Byte) (c : Bool) (s : State) : (s.addCore a m c).devices = s.devices := rfl
@[simp] theorem State.addCore_draws (a m : Byte) (c : Bool) (s : State) : (s.addCore a m c).draws = s.draws := rfl
@[simp] theorem State.addCore_params (a m : Byte) (c : Bool) (s : State) : (s.addCore a m c).params = s.params := rfl
@[simp] theorem State.addCore_cycles (a m : Byte) (c : Bool) (s : State) : (s.addCore a m c).cycles = s.cycles := rfl
@[simp] theorem State.addCore_trace (a m : Byte) (c : Bool) (s : State) : (s.addCore a m c).trace = s.trace := rfl
@[simp] theorem State.addCore_isDevice (a m : Byte) (c : Bool) (s : State) (d : Addr) : (s.addCore a m c).isDevice d = s.isDevice d := by simp [State.isDevice]

/-! ### compare -/

@[simp] theorem State.compare_a (r m : Byte) (s : State) : (s.compare r m).a = s.a := rfl
@[simp] theorem State.compare_x (r m : Byte) (s : State) : (s.compare r m).x = s.x := rfl
@[simp] theorem State.compare_y (r m : Byte) (s : State) : (s.compare r m).y = s.y := rfl
@[simp] theorem State.compare_sp (r m : Byte) (s : State) : (s.compare r m).sp = s.sp := rfl
@[simp] theorem State.compare_pc (r m : Byte) (s : State) : (s.compare r m).pc = s.pc := rfl
@[simp] theorem State.compare_flagC (r m : Byte) (s : State) : (s.compare r m).flagC = decide (m ≤ r) := rfl
@[simp] theorem State.compare_flagZ (r m : Byte) (s : State) : (s.compare r m).flagZ = (r == m) := rfl
@[simp] theorem State.compare_flagI (r m : Byte) (s : State) : (s.compare r m).flagI = s.flagI := rfl
@[simp] theorem State.compare_flagD (r m : Byte) (s : State) : (s.compare r m).flagD = s.flagD := rfl
@[simp] theorem State.compare_flagV (r m : Byte) (s : State) : (s.compare r m).flagV = s.flagV := rfl
@[simp] theorem State.compare_flagN (r m : Byte) (s : State) : (s.compare r m).flagN = (r - m).msb := rfl
@[simp] theorem State.compare_nmiPending (r m : Byte) (s : State) : (s.compare r m).nmiPending = s.nmiPending := rfl
@[simp] theorem State.compare_halted (r m : Byte) (s : State) : (s.compare r m).halted = s.halted := rfl
@[simp] theorem State.compare_irqLine (r m : Byte) (s : State) : (s.compare r m).irqLine = s.irqLine := rfl
@[simp] theorem State.compare_mem (r m : Byte) (s : State) : (s.compare r m).mem = s.mem := rfl
@[simp] theorem State.compare_devices (r m : Byte) (s : State) : (s.compare r m).devices = s.devices := rfl
@[simp] theorem State.compare_draws (r m : Byte) (s : State) : (s.compare r m).draws = s.draws := rfl
@[simp] theorem State.compare_params (r m : Byte) (s : State) : (s.compare r m).params = s.params := rfl
@[simp] theorem State.compare_cycles (r m : Byte) (s : State) : (s.compare r m).cycles = s.cycles := rfl
@[simp] theorem State.compare_trace (r m : Byte) (s : State) : (s.compare r m).trace = s.trace := rfl
@[simp] theorem State.compare_isDevice (r m : Byte) (s : State) (d : Addr) : (s.compare r m).isDevice d = s.isDevice d := by simp [State.isDevice]

/-! ### setC -/

@[simp] theorem State.setC_a (c : Bool) (s : State) : (s.setC c).a = s.a := rfl
@[simp] theorem State.setC_x (c : Bool) (s : State) : (s.setC c).x = s.x := rfl
@[simp] theorem State.setC_y (c : Bool) (s : State) : (s.setC c).y = s.y := rfl
@[simp] theorem State.setC_sp (c : Bool) (s : State) : (s.setC c).sp = s.sp := rfl
@[simp] theorem State.setC_pc (c : Bool) (s : State) : (s.setC c).pc = s.pc := rfl
@[simp] theorem State.setC_flagC (c : Bool) (s : State) : (s.setC c).flagC = c := rfl
@[simp] theorem State.setC_flagZ (c : Bool) (s : State) : (s.setC c).flagZ = s.flagZ := rfl
@[simp] theorem State.setC_flagI (c : Bool) (s : State) : (s.setC c).flagI = s.flagI := rfl
@[simp] theorem State.setC_flagD (c : Bool) (s : State) : (s.setC c).flagD = s.flagD := rfl
@[simp] theorem State.setC_flagV (c : Bool) (s : State) : (s.setC c).flagV = s.flagV := rfl
@[simp] theorem State.setC_flagN (c : Bool) (s : State) : (s.setC c).flagN = s.flagN := rfl
@[simp] theorem State.setC_nmiPending (c : Bool) (s : State) : (s.setC c).nmiPending = s.nmiPending := rfl
@[simp] theorem State.setC_halted (c : Bool) (s : State) : (s.setC c).halted = s.halted := rfl
@[simp] theorem State.setC_irqLine (c : Bool) (s : State) : (s.setC c).irqLine = s.irqLine := rfl
@[simp] theorem State.setC_mem (c : Bool) (s : State) : (s.setC c).mem = s.mem := rfl
@[simp] theorem State.setC_devices (c : Bool) (s : State) : (s.setC c).devices = s.devices := rfl
@[simp] theorem State.setC_draws (c : Bool) (s : State) : (s.setC c).draws = s.draws := rfl
@[simp] theorem State.setC_params (c : Bool) (s : State) : (s.setC c).params = s.params := rfl
@[simp] theorem State.setC_cycles (c : Bool) (s : State) : (s.setC c).cycles = s.cycles := rfl
@[simp] theorem State.setC_trace (c : Bool) (s : State) : (s.setC c).trace = s.trace := rfl
@[simp] theorem State.setC_isDevice (c : Bool) (s : State) (d : Addr) : (s.setC c).isDevice d = s.isDevice d := by simp [State.isDevice]

/-! ### setA -/

@[simp] theorem State.setA_a (v : Byte) (s : State) : (s.setA v).a = v := rfl
@[simp] theorem State.setA_x (v : Byte) (s : State) : (s.setA v).x = s.x := rfl
@[simp] theorem State.setA_y (v : Byte) (s : State) : (s.setA v).y = s.y := rfl
@[simp] theorem State.setA_sp (v : Byte) (s : State) : (s.setA v).sp = s.sp := rfl
@[simp] theorem State.setA_pc (v : Byte) (s : State) : (s.setA v).pc = s.pc := rfl
@[simp] theorem State.setA_flagC (v : Byte) (s : State) : (s.setA v).flagC = s.flagC := rfl
@[simp] theorem State.setA_flagZ (v : Byte) (s : State) : (s.setA v).flagZ = s.flagZ := rfl
@[simp] theorem State.setA_flagI (v : Byte) (s : State) : (s.setA v).flagI = s.flagI := rfl
@[simp] theorem State.setA_flagD (v : Byte) (s : State) : (s.setA v).flagD = s.flagD := rfl
@[simp] theorem State.setA_flagV (v : Byte) (s : State) : (s.setA v).flagV = s.flagV := rfl
@[simp] theorem State.setA_flagN (v : Byte) (s : State) : (s.setA v).flagN = s.flagN := rfl
@[simp] theorem State.setA_nmiPending (v : Byte) (s : State) : (s.setA v).nmiPending = s.nmiPending := rfl
@[simp] theorem State.setA_halted (v : Byte) (s : State) : (s.setA v).halted = s.halted := rfl
@[simp] theorem State.setA_irqLine (v : Byte) (s : State) : (s.setA v).irqLine = s.irqLine := rfl
@[simp] theorem State.setA_mem (v : Byte) (s : State) : (s.setA v).mem = s.mem := rfl
@[simp] theorem State.setA_devices (v : Byte) (s : State) : (s.setA v).devices = s.devices := rfl
@[simp] theorem State.setA_draws (v : Byte) (s : State) : (s.setA v).draws = s.draws := rfl
@[simp] theorem State.setA_params (v : Byte) (s : State) : (s.setA v).params = s.params := rfl
@[simp] theorem State.setA_cycles (v : Byte) (s : State) : (s.setA v).cycles = s.cycles := rfl
@[simp] theorem State.setA_trace (v : Byte) (s : State) : (s.setA v).trace = s.trace := rfl
@[simp] theorem State.setA_isDevice (v : Byte) (s : State) (d : Addr) : (s.setA v).isDevice d = s.isDevice d := by simp [State.isDevice]

/-! ### setS -/

@[simp] theorem State.setS_a (v : Option Byte) (s : State) : (s.setS v).a = s.a := rfl
@[simp] theorem State.setS_x (v : Option Byte) (s : State) : (s.setS v).x = s.x := rfl
@[simp] theorem State.setS_y (v : Option Byte) (s : State) : (s.setS v).y = s.y := rfl
@[simp] theorem State.setS_sp (v : Option Byte) (s : State) : (s.setS v).sp = v.getD s.sp := rfl
@[simp] theorem State.setS_pc (v : Option Byte) (s : State) : (s.setS v).pc = s.pc := rfl
@[simp] theorem State.setS_flagC (v : Option Byte) (s : State) : (s.setS v).flagC = s.flagC := rfl
@[simp] theorem State.setS_flagZ (v : Option Byte) (s : State) : (s.setS v).flagZ = s.flagZ := rfl
@[simp] theorem State.setS_flagI (v : Option Byte) (s : State) : (s.setS v).flagI = s.flagI := rfl
@[simp] theorem State.setS_flagD (v : Option Byte) (s : State) : (s.setS v).flagD = s.flagD := rfl
@[simp] theorem State.setS_flagV (v : Option Byte) (s : State) : (s.setS v).flagV = s.flagV := rfl
@[simp] theorem State.setS_flagN (v : Option Byte) (s : State) : (s.setS v).flagN = s.flagN := rfl
@[simp] theorem State.setS_nmiPending (v : Option Byte) (s : State) : (s.setS v).nmiPending = s.nmiPending := rfl
@[simp] theorem State.setS_halted (v : Option Byte) (s : State) : (s.setS v).halted = s.halted := rfl
@[simp] theorem State.setS_irqLine (v : Option Byte) (s : State) : (s.setS v).irqLine = s.irqLine := rfl
@[simp] theorem State.setS_mem (v : Option Byte) (s : State) : (s.setS v).mem = s.mem := rfl
@[simp] theorem State.setS_devices (v : Option Byte) (s : State) : (s.setS v).devices = s.devices := rfl
@[simp] theorem State.setS_draws (v : Option Byte) (s : State) : (s.setS v).draws = s.draws := rfl
@[simp] theorem State.setS_params (v : Option Byte) (s : State) : (s.setS v).params = s.params := rfl
@[simp] theorem State.setS_cycles (v : Option Byte) (s : State) : (s.setS v).cycles = s.cycles := rfl
@[simp] theorem State.setS_trace (v : Option Byte) (s : State) : (s.setS v).trace = s.trace := rfl
@[simp] theorem State.setS_isDevice (v : Option Byte) (s : State) (d : Addr) : (s.setS v).isDevice d = s.isDevice d := by simp [State.isDevice]

/-! ### fetchedOnly -/

@[simp] theorem State.fetchedOnly_a (op : Byte) (s : State) : (s.fetchedOnly op).a = s.a := rfl
@[simp] theorem State.fetchedOnly_x (op : Byte) (s : State) : (s.fetchedOnly op).x = s.x := rfl
@[simp] theorem State.fetchedOnly_y (op : Byte) (s : State) : (s.fetchedOnly op).y = s.y := rfl
@[simp] theorem State.fetchedOnly_sp (op : Byte) (s : State) : (s.fetchedOnly op).sp = s.sp := rfl
@[simp] theorem State.fetchedOnly_pc (op : Byte) (s : State) : (s.fetchedOnly op).pc = s.pc + 1 := rfl
@[simp] theorem State.fetchedOnly_flagC (op : Byte) (s : State) : (s.fetchedOnly op).flagC = s.flagC := rfl
@[simp] theorem State.fetchedOnly_flagZ (op : Byte) (s : State) : (s.fetchedOnly op).flagZ = s.flagZ := rfl
@[simp] theorem State.fetchedOnly_flagI (op : Byte) (s : State) : (s.fetchedOnly op).flagI = s.flagI := rfl
@[simp] theorem State.fetchedOnly_flagD (op : Byte) (s : State) : (s.fetchedOnly op).flagD = s.flagD := rfl
@[simp] theorem State.fetchedOnly_flagV (op : Byte) (s : State) : (s.fetchedOnly op).flagV = s.flagV := rfl
@[simp] theorem State.fetchedOnly_flagN (op : Byte) (s : State) : (s.fetchedOnly op).flagN = s.flagN := rfl
@[simp] theorem State.fetchedOnly_nmiPending (op : Byte) (s : State) : (s.fetchedOnly op).nmiPending = s.nmiPending := rfl
@[simp] theorem State.fetchedOnly_halted (op : Byte) (s : State) : (s.fetchedOnly op).halted = s.halted := rfl
@[simp] theorem State.fetchedOnly_irqLine (op : Byte) (s : State) : (s.fetchedOnly op).irqLine = s.irqLine := rfl
@[simp] theorem State.fetchedOnly_mem (op : Byte) (s : State) : (s.fetchedOnly op).mem = s.mem := rfl
@[simp] theorem State.fetchedOnly_devices (op : Byte) (s : State) : (s.fetchedOnly op).devices = s.devices := rfl
@[simp] theorem State.fetchedOnly_draws (op : Byte) (s : State) : (s.fetchedOnly op).draws = if s.isDevice s.pc then s.draws + 1 else s.draws := rfl
@[simp] theorem State.fetchedOnly_params (op : Byte) (s : State) : (s.fetchedOnly op).params = s.params := rfl
@[simp] theorem State.fetchedOnly_cycles (op : Byte) (s : State) : (s.fetchedOnly op).cycles = s.cycles := rfl
@[simp] theorem State.fetchedOnly_trace (op : Byte) (s : State) : (s.fetchedOnly op).trace = [⟨.read, s.pc, op⟩] := rfl
@[simp] theorem State.fetchedOnly_isDevice (op : Byte) (s : State) (d : Addr) : (s.fetchedOnly op).isDevice d = s.isDevice d := by simp [State.isDevice]

/-! ### setI -/

@[simp] theorem State.setI_a (b : Bool) (s : State) : (s.setI b).a = s.a := rfl
@[simp] theorem State.setI_x (b : Bool) (s : State) : (s.setI b).x = s.x := rfl
@[simp] theorem State.setI_y (b : Bool) (s : State) : (s.setI b).y = s.y := rfl
@[simp] theorem State.setI_sp (b : Bool) (s : State) : (s.setI b).sp = s.sp := rfl
@[simp] theorem State.setI_pc (b : Bool) (s : State) : (s.setI b).pc = s.pc := rfl
@[simp] theorem State.setI_flagC (b : Bool) (s : State) : (s.setI b).flagC = s.flagC := rfl
@[simp] theorem State.setI_flagZ (b : Bool) (s : State) : (s.setI b).flagZ = s.flagZ := rfl
@[simp] theorem State.setI_flagI (b : Bool) (s : State) : (s.setI b).flagI = b := rfl
@[simp] theorem State.setI_flagD (b : Bool) (s : State) : (s.setI b).flagD = s.flagD := rfl
@[simp] theorem State.setI_flagV (b : Bool) (s : State) : (s.setI b).flagV = s.flagV := rfl
@[simp] theorem State.setI_flagN (b : Bool) (s : State) : (s.setI b).flagN = s.flagN := rfl
@[simp] theorem State.setI_nmiPending (b : Bool) (s : State) : (s.setI b).nmiPending = s.nmiPending := rfl
@[simp] theorem State.setI_halted (b : Bool) (s : State) : (s.setI b).halted = s.halted := rfl
@[simp] theorem State.setI_irqLine (b : Bool) (s : State) : (s.setI b).irqLine = s.irqLine := rfl
@[simp] theorem State.setI_mem (b : Bool) (s : State) : (s.setI b).mem = s.mem := rfl
@[simp] theorem State.setI_devices (b : Bool) (s : State) : (s.setI b).devices = s.devices := rfl
@[simp] theorem State.setI_draws (b : Bool) (s : State) : (s.setI b).draws = s.draws := rfl
@[simp] theorem State.setI_params (b : Bool) (s : State) : (s.setI b).params = s.params := rfl
@[simp] theorem State.setI_cycles (b : Bool) (s : State) : (s.setI b).cycles = s.cycles := rfl
@[simp] theorem State.setI_trace (b : Bool) (s : State) : (s.setI b).trace = s.trace := rfl
@[simp] theorem State.setI_isDevice (b : Bool) (s : State) (d : Addr) : (s.setI b).isDevice d = s.isDevice d := by simp [State.isDevice]

/-! ### goto -/

@[simp] theorem State.goto_a (a : Addr) (s : State) : (s.goto a).a = s.a := rfl
@[simp] theorem State.goto_x (a : Addr) (s : State) : (s.goto a).x = s.x := rfl
@[simp] theorem State.goto_y (a : Addr) (s : State) : (s.goto a).y = s.y := rfl
@[simp] theorem State.goto_sp (a : Addr) (s : State) : (s.goto a).sp = s.sp := rfl
@[simp] theorem State.goto_pc (a : Addr) (s : State) : (s.goto a).pc = a := rfl
@[simp] theorem State.goto_flagC (a : Addr) (s : State) : (s.goto a).flagC = s.flagC := rfl
@[simp] theorem State.goto_flagZ (a : Addr) (s : State) : (s.goto a).flagZ = s.flagZ := rfl
@[simp] theorem State.goto_flagI (a : Addr) (s : State) : (s.goto a).flagI = s.flagI := rfl
@[simp] theorem State.goto_flagD (a : Addr) (s : State) : (s.goto a).flagD = s.flagD := rfl
@[simp] theorem State.goto_flagV (a : Addr) (s : State) : (s.goto a).flagV = s.flagV := rfl
@[simp] theorem State.goto_flagN (a : Addr) (s : State) : (s.goto a).flagN = s.flagN := rfl
@[simp] theorem State.goto_nmiPending (a : Addr) (s : State) : (s.goto a).nmiPending = s.nmiPending := rfl
@[simp] theorem State.goto_halted (a : Addr) (s : State) : (s.goto a).halted = s.halted := rfl
@[simp] theorem State.goto_irqLine (a : Addr) (s : State) : (s.goto a).irqLine = s.irqLine := rfl
@[simp] theorem State.goto_mem (a : Addr) (s : State) : (s.goto a).mem = s.mem := rfl
@[simp] theorem State.goto_devices (a : Addr) (s : State) : (s.goto a).devices = s.devices := rfl
@[simp] theorem State.goto_draws (a : Addr) (s : State) : (s.goto a).draws = s.draws := rfl
@[simp] theorem State.goto_params (a : Addr) (s : State) : (s.goto a).params = s.params := rfl
@[simp] theorem State.goto_cycles (a : Addr) (s : State) : (s.goto a).cycles = s.cycles := rfl
@[simp] theorem State.goto_trace (a : Addr) (s : State) : (s.goto a).trace = s.trace := rfl
@[simp] theorem State.goto_isDevice (a : Addr) (s : State) (d : Addr) : (s.goto a).isDevice d = s.isDevice d := by simp [State.isDevice]

/-! ### beginStep -/

@[simp] theorem State.beginStep_a (n : Nat) (s : State) : (s.beginStep n).a = s.a := rfl
@[simp] theorem State.beginStep_x (n : Nat) (s : State) : (s.beginStep n).x = s.x := rfl
@[simp] theorem State.beginStep_y (n : Nat) (s : State) : (s.beginStep n).y = s.y := rfl
@[simp] theorem State.beginStep_sp (n : Nat) (s : State) : (s.beginStep n).sp = s.sp := rfl
@[simp] theorem State.beginStep_pc (n : Nat) (s : State) : (s.beginStep n).pc = s.pc := rfl
@[simp] theorem State.beginStep_flagC (n : Nat) (s : State) : (s.beginStep n).flagC = s.flagC := rfl
@[simp] theorem State.beginStep_flagZ (n : Nat) (s : State) : (s.beginStep n).flagZ = s.flagZ := rfl
@[simp] theorem State.beginStep_flagI (n : Nat) (s : State) : (s.beginStep n).flagI = s.flagI := rfl
@[simp] theorem State.beginStep_flagD (n : Nat) (s : State) : (s.beginStep n).flagD = s.flagD := rfl
@[simp] theorem State.beginStep_flagV (n : Nat) (s : State) : (s.beginStep n).flagV = s.flagV := rfl
@[simp] theorem State.beginStep_flagN (n : Nat) (s : State) : (s.beginStep n).flagN = s.flagN := rfl
@[simp] theorem State.beginStep_nmiPending (n : Nat) (s : State) : (s.beginStep n).nmiPending = s.nmiPending := rfl
@[simp] theorem State.beginStep_halted (n : Nat) (s : State) : (s.beginStep n).halted = s.halted := rfl
@[simp] theorem State.beginStep_irqLine (n : Nat) (s : State) : (s.beginStep n).irqLine = s.irqLine := rfl
@[simp] theorem State.beginStep_mem (n : Nat) (s : State) : (s.beginStep n).mem = s.mem := rfl
@[simp] theorem State.beginStep_devices (n : Nat) (s : State) : (s.beginStep n).devices = s.devices := rfl
@[simp] theorem State.beginStep_draws (n : Nat) (s : State) : (s.beginStep n).draws = s.draws := rfl
@[simp] theorem State.beginStep_params (n : Nat) (s : State) : (s.beginStep n).params = s.params := rfl
@[simp] theorem State.beginStep_cycles (n : Nat) (s : State) : (s.beginStep n).cycles = n := rfl
@[simp] theorem State.beginStep_trace (n : Nat) (s : State) : (s.beginStep n).trace = [] := rfl
@[simp] theorem State.beginStep_isDevice (n : Nat) (s : State) (d : Addr) : (s.beginStep n).isDevice d = s.isDevice d := by simp [State.isDevice]

/-! ### logRead -/

@[simp] theorem State.logRead_a (a : Addr) (v : Byte) (s : State) : (s.logRead a v).a = s.a := rfl
@[simp] theorem State.logRead_x (a : Addr) (v : Byte) (s : State) : (s.logRead a v).x = s.x := rfl
@[simp] theorem State.logRead_y (a : Addr) (v : Byte) (s : State) : (s.logRead a v).y = s.y := rfl
@[simp] theorem State.logRead_sp (a : Addr) (v : Byte) (s : State) : (s.logRead a v).sp = s.sp := rfl
@[simp] theorem State.logRead_pc (a : Addr) (v : Byte) (s : State) : (s.logRead a v).pc = s.pc := rfl
@[simp] theorem State.logRead_flagC (a : Addr) (v : Byte) (s : State) : (s.logRead a v).flagC = s.flagC := rfl
@[simp] theorem State.logRead_flagZ (a : Addr) (v : Byte) (s : State) : (s.logRead a v).flagZ = s.flagZ := rfl
@[simp] theorem State.logRead_flagI (a : Addr) (v : Byte) (s : State) : (s.logRead a v).flagI = s.flagI := rfl
@[simp] theorem State.logRead_flagD (a : Addr) (v : Byte) (s : State) : (s.logRead a v).flagD = s.flagD := rfl
@[simp] theorem State.logRead_flagV (a : Addr) (v : Byte) (s : State) : (s.logRead a v).flagV = s.flagV := rfl
@[simp] theorem State.logRead_flagN (a : Addr) (v : Byte) (s : State) : (s.logRead a v).flagN = s.flagN := rfl
@[simp] theorem State.logRead_nmiPending (a : Addr) (v : Byte) (s : State) : (s.logRead a v).nmiPending = s.nmiPending := rfl
@[simp] theorem State.logRead_halted (a : Addr) (v : Byte) (s : State) : (s.logRead a v).halted = s.halted := rfl
@[simp] theorem State.logRead_irqLine (a : Addr) (v : Byte) (s : State) : (s.logRead a v).irqLine = s.irqLine := rfl
@[simp] theorem State.logRead_mem (a : Addr) (v : Byte) (s : State) : (s.logRead a v).mem = s.mem := rfl
@[simp] theorem State.logRead_devices (a : Addr) (v : Byte) (s : State) : (s.logRead a v).devices = s.devices := rfl
@[simp] theorem State.logRead_draws (a : Addr) (v : Byte) (s : State) : (s.logRead a v).draws = if s.isDevice a then s.draws + 1 else s.draws := rfl
@[simp] theorem State.logRead_params (a : Addr) (v : Byte) (s : State) : (s.logRead a v).params = s.params := rfl
@[simp] theorem State.logRead_cycles (a : Addr) (v : Byte) (s : State) : (s.logRead a v).cycles = s.cycles := rfl
@[simp] theorem State.logRead_trace (a : Addr) (v : Byte) (s : State) : (s.logRead a v).trace = s.trace ++ [⟨.read, a, v⟩] := rfl
@[simp] theorem State.logRead_isDevice (a : Addr) (v : Byte) (s : State) (d : Addr) : (s.logRead a v).isDevice d = s.isDevice d := by simp [State.isDevice]

/-! ### busWrite -/

@[simp] theorem State.busWrite_a (a : Addr) (v : Byte) (s : State) : (s.busWrite a v).a = s.a := rfl
@[simp] theorem State.busWrite_x (a : Addr) (v : Byte) (s : State) : (s.busWrite a v).x = s.x := rfl
@[simp] theorem State.busWrite_y (a : Addr) (v : Byte) (s : State) : (s.busWrite a v).y = s.y := rfl
@[simp] theorem State.busWrite_sp (a : Addr) (v : Byte) (s : State) : (s.busWrite a v).sp = s.sp := rfl
@[simp] theorem State.busWrite_pc (a : Addr) (v : Byte) (s : State) : (s.busWrite a v).pc = s.pc := rfl
@[simp] theorem State.busWrite_flagC (a : Addr) (v : Byte) (s : State) : (s.busWrite a v).flagC = s.flagC := rfl
@[simp] theorem State.busWrite_flagZ (a : Addr) (v : Byte) (s : State) : (s.busWrite a v).flagZ = s.flagZ := rfl
@[simp] theorem State.busWrite_flagI (a : Addr) (v : Byte) (s : State) : (s.busWrite a v).flagI = s.flagI := rfl
@[simp] theorem State.busWrite_flagD (a : Addr) (v : Byte) (s : State) : (s.busWrite a v).flagD = s.flagD := rfl
@[simp] theorem State.busWrite_flagV (a : Addr) (v : Byte) (s : State) : (s.busWrite a v).flagV = s.flagV := rfl
@[simp] theorem State.busWrite_flagN (a : Addr) (v : Byte) (s : State) : (s.busWrite a v).flagN = s.flagN := rfl
@[simp] theorem State.busWrite_nmiPending (a : Addr) (v : Byte) (s : State) : (s.busWrite a v).nmiPending = s.nmiPending := rfl
@[simp] theorem State.busWrite_halted (a : Addr) (v : Byte) (s : State) : (s.busWrite a v).halted = s.halted := rfl
@[simp] theorem State.busWrite_irqLine (a : Addr) (v : Byte) (s : State) : (s.busWrite a v).irqLine = s.irqLine := rfl
@[simp] theorem State.busWrite_mem (a : Addr) (v : Byte) (s : State) : (s.busWrite a v).mem = if s.isDevice a then s.mem else s.mem.write a.toNat v := rfl
@[simp] theorem State.busWrite_devices (a : Addr) (v : Byte) (s : State) : (s.busWrite a v).devices = s.devices := rfl
@[simp] theorem State.busWrite_draws (a : Addr) (v : Byte) (s : State) : (s.busWrite a v).draws = s.draws := rfl
@[simp] theorem State.busWrite_params (a : Addr) (v : Byte) (s : State) : (s.busWrite a v).params = s.params := rfl
@[simp] theorem State.busWrite_cycles (a : Addr) (v : Byte) (s : State) : (s.busWrite a v).cycles = s.cycles := rfl
@[simp] theorem State.busWrite_trace (a : Addr) (v : Byte) (s : State) : (s.busWrite a v).trace = s.trace ++ [⟨.write, a, v⟩] := rfl
@[simp] theorem State.busWrite_isDevice (a : Addr) (v : Byte) (s : State) (d : Addr) : (s.busWrite a v).isDevice d = s.isDevice d := by simp [State.isDevice]

/-! ### fetched -/

@[simp] theorem State.fetched_a (v : Byte) (s : State) : (s.fetched v).a = s.a := rfl
@[simp] theorem State.fetched_x (v : Byte) (s : State) : (s.fetched v).x = s.x := rfl
@[simp] theorem State.fetched_y (v : Byte) (s : State) : (s.fetched v).y = s.y := rfl
@[simp] theorem State.fetched_sp (v : Byte) (s : State) : (s.fetched v).sp = s.sp := rfl
@[simp] theorem State.fetched_pc (v : Byte) (s : State) : (s.fetched v).pc = s.pc + 1 := rfl
@[simp] theorem State.fetched_flagC (v : Byte) (s : State) : (s.fetched v).flagC = s.flagC := rfl
@[simp] theorem State.fetched_flagZ (v : Byte) (s : State) : (s.fetched v).flagZ = s.flagZ := rfl
@[simp] theorem State.fetched_flagI (v : Byte) (s : State) : (s.fetched v).flagI = s.flagI := rfl
@[simp] theorem State.fetched_flagD (v : Byte) (s : State) : (s.fetched v).flagD = s.flagD := rfl
@[simp] theorem State.fetched_flagV (v : Byte) (s : State) : (s.fetched v).flagV = s.flagV := rfl
@[simp] theorem State.fetched_flagN (v : Byte) (s : State) : (s.fetched v).flagN = s.flagN := rfl
@[simp] theorem State.fetched_nmiPending (v : Byte) (s : State) : (s.fetched v).nmiPending = s.nmiPending := rfl
@[simp] theorem State.fetched_halted (v : Byte) (s : State) : (s.fetched v).halted = s.halted := rfl
@[simp] theorem State.fetched_irqLine (v : Byte) (s : State) : (s.fetched v).irqLine = s.irqLine := rfl
@[simp] theorem State.fetched_mem (v : Byte) (s : State) : (s.fetched v).mem = s.mem := rfl
@[simp] theorem State.fetched_devices (v : Byte) (s : State) : (s.fetched v).devices = s.devices := rfl
@[simp] theorem State.fetched_draws (v : Byte) (s : State) : (s.fetched v).draws = if s.isDevice s.pc then s.draws + 1 else s.draws := rfl
@[simp] theorem State.fetched_params (v : Byte) (s : State) : (s.fetched v).params = s.params := rfl
@[simp] theorem State.fetched_cycles (v : Byte) (s : State) : (s.fetched v).cycles = s.cycles := rfl
@[simp] theorem State.fetched_trace (v : Byte) (s : State) : (s.fetched v).trace = s.trace ++ [⟨.read, s.pc, v⟩] := rfl
@[simp] theorem State.fetched_isDevice (v : Byte) (s : State) (d : Addr) : (s.fetched v).isDevice d = s.isDevice d := by simp [State.isDevice]

/-! ### beginInstr -/

@[simp] theorem State.beginInstr_a (op : Byte) (n : Nat) (s : State) : (s.beginInstr op n).a = s.a := rfl
@[simp] theorem State.beginInstr_x (op : Byte) (n : Nat) (s : State) : (s.beginInstr op n).x = s.x := rfl
@[simp] theorem State.beginInstr_y (op : Byte) (n : Nat) (s : State) : (s.beginInstr op n).y = s.y := rfl
@[simp] theorem State.beginInstr_sp (op : Byte) (n : Nat) (s : State) : (s.beginInstr op n).sp = s.sp := rfl
@[simp] theorem State.beginInstr_pc (op : Byte) (n : Nat) (s : State) : (s.beginInstr op n).pc = s.pc + 1 := rfl
@[simp] theorem State.beginInstr_flagC (op : Byte) (n : Nat) (s : State) : (s.beginInstr op n).flagC = s.flagC := rfl
@[simp] theorem State.beginInstr_flagZ (op : Byte) (n : Nat) (s : State) : (s.beginInstr op n).flagZ = s.flagZ := rfl
@[simp] theorem State.beginInstr_flagI (op : Byte) (n : Nat) (s : State) : (s.beginInstr op n).flagI = s.flagI := rfl
@[simp] theorem State.beginInstr_flagD (op : Byte) (n : Nat) (s : State) : (s.beginInstr op n).flagD = s.flagD := rfl
@[simp] theorem State.beginInstr_flagV (op : Byte) (n : Nat) (s : State) : (s.beginInstr op n).flagV = s.flagV := rfl
@[simp] theorem State.beginInstr_flagN (op : Byte) (n : Nat) (s : State) : (s.beginInstr op n).flagN = s.flagN := rfl
@[simp] theorem State.beginInstr_nmiPending (op : Byte) (n : Nat) (s : State) : (s.beginInstr op n).nmiPending = s.nmiPending := rfl
@[simp] theorem State.beginInstr_halted (op : Byte) (n : Nat) (s : State) : (s.beginInstr op n).halted = s.halted := rfl
@[simp] theorem State.beginInstr_irqLine (op : Byte) (n : Nat) (s : State) : (s.beginInstr op n).irqLine = s.irqLine := rfl
@[simp] theorem State.beginInstr_mem (op : Byte) (n : Nat) (s : State) : (s.beginInstr op n).mem = s.mem := rfl
@[simp] theorem State.beginInstr_devices (op : Byte) (n : Nat) (s : State) : (s.beginInstr op n).devices = s.devices := rfl
@[simp] theorem State.beginInstr_draws (op : Byte) (n : Nat) (s : State) : (s.beginInstr op n).draws = if s.isDevice s.pc then s.draws + 1 else s.draws := rfl
@[simp] theorem State.beginInstr_params (op : Byte) (n : Nat) (s : State) : (s.beginInstr op n).params = s.params := rfl
@[simp] theorem State.beginInstr_cycles (op : Byte) (n : Nat) (s : State) : (s.beginInstr op n).cycles = n := rfl
@[simp] theorem State.beginInstr_trace (op : Byte) (n : Nat) (s : State) : (s.beginInstr op n).trace = [⟨.read, s.pc, op⟩] := rfl
@[simp] theorem State.beginInstr_isDevice (op : Byte) (n : Nat) (s : State) (d : Addr) : (s.beginInstr op n).isDevice d = s.isDevice d := by simp [State.isDevice]

/-! ### addCycles -/

@[simp] theorem State.addCycles_a (n : Nat) (s : State) : (s.addCycles n).a = s.a := rfl
@[simp] theorem State.addCycles_x (n : Nat) (s : State) : (s.addCycles n).x = s.x := rfl
@[simp] theorem State.addCycles_y (n : Nat) (s : State) : (s.addCycles n).y = s.y := rfl
@[simp] theorem State.addCycles_sp (n : Nat) (s : State) : (s.addCycles n).sp = s.sp := rfl
@[simp] theorem State.addCycles_pc (n : Nat) (s : State) : (s.addCycles n).pc = s.pc := rfl
@[simp] theorem State.addCycles_flagC (n : Nat) (s : State) : (s.addCycles n).flagC = s.flagC := rfl
@[simp] theorem State.addCycles_flagZ (n : Nat) (s : State) : (s.addCycles n).flagZ = s.flagZ := rfl
@[simp] theorem State.addCycles_flagI (n : Nat) (s : State) : (s.addCycles n).flagI = s.flagI := rfl
@[simp] theorem State.addCycles_flagD (n : Nat) (s : State) : (s.addCycles n).flagD = s.flagD := rfl
@[simp] theorem State.addCycles_flagV (n : Nat) (s : State) : (s.addCycles n).flagV = s.flagV := rfl
@[simp] theorem State.addCycles_flagN (n : Nat) (s : State) : (s.addCycles n).flagN = s.flagN := rfl
@[simp] theorem State.addCycles_nmiPending (n : Nat) (s : State) : (s.addCycles n).nmiPending = s.nmiPending := rfl
@[simp] theorem State.addCycles_halted (n : Nat) (s : State) : (s.addCycles n).halted = s.halted := rfl
@[simp] theorem State.addCycles_irqLine (n : Nat) (s : State) : (s.addCycles n).irqLine = s.irqLine := rfl
@[simp] theorem State.addCycles_mem (n : Nat) (s : State) : (s.addCycles n).mem = s.mem := rfl
@[simp] theorem State.addCycles_devices (n : Nat) (s : State) : (s.addCycles n).devices = s.devices := rfl
@[simp] theorem State.addCycles_draws (n : Nat) (s : State) : (s.addCycles n).draws = s.draws := rfl
@[simp] theorem State.addCycles_params (n : Nat) (s : State) : (s.addCycles n).params = s.params := rfl
@[simp] theorem State.addCycles_cycles (n : Nat) (s : State) : (s.addCycles n).cycles = s.cycles + n := rfl
@[simp] theorem State.addCycles_trace (n : Nat) (s : State) : (s.addCycles n).trace = s.trace := rfl
@[simp] theorem State.addCycles_isDevice (n : Nat) (s : State) (d : Addr) : (s.addCycles n).isDevice d = s.isDevice d := by simp [State.isDevice]

/-! ### dummyRead -/

@[simp] theorem State.dummyRead_a (a : Addr) (s : State) : (s.dummyRead a).a = s.a := by unfold State.dummyRead; split <;> rfl
@[simp] theorem State.dummyRead_x (a : Addr) (s : State) : (s.dummyRead a).x = s.x := by unfold State.dummyRead; split <;> rfl
@[simp] theorem State.dummyRead_y (a : Addr) (s : State) : (s.dummyRead a).y = s.y := by unfold State.dummyRead; split <;> rfl
@[simp] theorem State.dummyRead_sp (a : Addr) (s : State) : (s.dummyRead a).sp = s.sp := by unfold State.dummyRead; split <;> rfl
@[simp] theorem State.dummyRead_pc (a : Addr) (s : State) : (s.dummyRead a).pc = s.pc := by unfold State.dummyRead; split <;> rfl
@[simp] theorem State.dummyRead_flagC (a : Addr) (s : State) : (s.dummyRead a).flagC = s.flagC := by unfold State.dummyRead; split <;> rfl
@[simp] theorem State.dummyRead_flagZ (a : Addr) (s : State) : (s.dummyRead a).flagZ = s.flagZ := by unfold State.dummyRead; split <;> rfl
@[simp] theorem State.dummyRead_flagI (a : Addr) (s : State) : (s.dummyRead a).flagI = s.flagI := by unfold State.dummyRead; split <;> rfl
@[simp] theorem State.dummyRead_flagD (a : Addr) (s : State) : (s.dummyRead a).flagD = s.flagD := by unfold State.dummyRead; split <;> rfl
@[simp] theorem State.dummyRead_flagV (a : Addr) (s : State) : (s.dummyRead a).flagV = s.flagV := by unfold State.dummyRead; split <;> rfl
@[simp] theorem State.dummyRead_flagN (a : Addr) (s : State) : (s.dummyRead a).flagN = s.flagN := by unfold State.dummyRead; split <;> rfl
@[simp] theorem State.dummyRead_nmiPending (a : Addr) (s : State) : (s.dummyRead a).nmiPending = s.nmiPending := by unfold State.dummyRead; split <;> rfl
@[simp] theorem State.dummyRead_halted (a : Addr) (s : State) : (s.dummyRead a).halted = s.halted := by unfold State.dummyRead; split <;> rfl
@[simp] theorem State.dummyRead_irqLine (a : Addr) (s : State) : (s.dummyRead a).irqLine = s.irqLine := by unfold State.dummyRead; split <;> rfl
@[simp] theorem State.dummyRead_mem (a : Addr) (s : State) : (s.dummyRead a).mem = s.mem := by unfold State.dummyRead; split <;> rfl
@[simp] theorem State.dummyRead_devices (a : Addr) (s : State) : (s.dummyRead a).devices = s.devices := by unfold State.dummyRead; split <;> rfl
@[simp] theorem State.dummyRead_params (a : Addr) (s : State) : (s.dummyRead a).params = s.params := by unfold State.dummyRead; split <;> rfl
@[simp] theorem State.dummyRead_cycles (a : Addr) (s : State) : (s.dummyRead a).cycles = s.cycles := by unfold State.dummyRead; split <;> rfl
@[simp] theorem State.dummyRead_isDevice (a : Addr) (s : State) (d : Addr) : (s.dummyRead a).isDevice d = s.isDevice d := by simp [State.isDevice]

/-! ### dummyWrite -/

@[simp] theorem State.dummyWrite_a (a : Addr) (v : Byte) (s : State) : (s.dummyWrite a v).a = s.a := by unfold State.dummyWrite; split <;> rfl
@[simp] theorem State.dummyWrite_x (a : Addr) (v : Byte) (s : State) : (s.dummyWrite a v).x = s.x := by unfold State.dummyWrite; split <;> rfl
@[simp] theorem State.dummyWrite_y (a : Addr) (v : Byte) (s : State) : (s.dummyWrite a v).y = s.y := by unfold State.dummyWrite; split <;> rfl
@[simp] theorem State.dummyWrite_sp (a : Addr) (v : Byte) (s : State) : (s.dummyWrite a v).sp = s.sp := by unfold State.dummyWrite; split <;> rfl
@[simp] theorem State.dummyWrite_pc (a : Addr) (v : Byte) (s : State) : (s.dummyWrite a v).pc = s.pc := by unfold State.dummyWrite; split <;> rfl
@[simp] theorem State.dummyWrite_flagC (a : Addr) (v : Byte) (s : State) : (s.dummyWrite a v).flagC = s.flagC := by unfold State.dummyWrite; split <;> rfl
@[simp] theorem State.dummyWrite_flagZ (a : Addr) (v : Byte) (s : State) : (s.dummyWrite a v).flagZ = s.flagZ := by unfold State.dummyWrite; split <;> rfl
@[simp] theorem State.dummyWrite_flagI (a : Addr) (v : Byte) (s : State) : (s.dummyWrite a v).flagI = s.flagI := by unfold State.dummyWrite; split <;> rfl
@[simp] theorem State.dummyWrite_flagD (a : Addr) (v : Byte) (s : State) : (s.dummyWrite a v).flagD = s.flagD := by unfold State.dummyWrite; split <;> rfl
@[simp] theorem State.dummyWrite_flagV (a : Addr) (v : Byte) (s : State) : (s.dummyWrite a v).flagV = s.flagV := by unfold State.dummyWrite; split <;> rfl
@[simp] theorem State.dummyWrite_flagN (a : Addr) (v : Byte) (s : State) : (s.dummyWrite a v).flagN = s.flagN := by unfold State.dummyWrite; split <;> rfl
@[simp] theorem State.dummyWrite_nmiPending (a : Addr) (v : Byte) (s : State) : (s.dummyWrite a v).nmiPending = s.nmiPending := by unfold State.dummyWrite; split <;> rfl
@[simp] theorem State.dummyWrite_halted (a : Addr) (v : Byte) (s : State) : (s.dummyWrite a v).halted = s.halted := by unfold State.dummyWrite; split <;> rfl
@[simp] theorem State.dummyWrite_irqLine (a : Addr) (v : Byte) (s : State) : (s.dummyWrite a v).irqLine = s.irqLine := by unfold State.dummyWrite; split <;> rfl
@[simp] theorem State.dummyWrite_devices (a : Addr) (v : Byte) (s : State) : (s.dummyWrite a v).devices = s.devices := by unfold State.dummyWrite; split <;> rfl
@[simp] theorem State.dummyWrite_draws (a : Addr) (v : Byte) (s : State) : (s.dummyWrite a v).draws = s.draws := by unfold State.dummyWrite; split <;> rfl
@[simp] theorem State.dummyWrite_params (a : Addr) (v : Byte) (s : State) : (s.dummyWrite a v).params = s.params := by unfold State.dummyWrite; split <;> rfl
@[simp] theorem State.dummyWrite_cycles (a : Addr) (v : Byte) (s : State) : (s.dummyWrite a v).cycles = s.cycles := by unfold State.dummyWrite; split <;> rfl
@[simp] theorem State.dummyWrite_isDevice (a : Addr) (v : Byte) (s : State) (d : Addr) : (s.dummyWrite a v).isDevice d = s.isDevice d := by simp [State.isDevice]

/-! ### push -/

@[simp] theorem State.push_a (v : Byte) (s : State) : (s.push v).a = s.a := rfl
@[simp] theorem State.push_x (v : Byte) (s : State) : (s.push v).x = s.x := rfl
@[simp] theorem State.push_y (v : Byte) (s : State) : (s.push v).y = s.y := rfl
@[simp] theorem State.push_sp (v : Byte) (s : State) : (s.push v).sp = s.sp - 1 := rfl
@[simp] theorem State.push_pc (v : Byte) (s : State) : (s.push v).pc = s.pc := rfl
@[simp] theorem State.push_flagC (v : Byte) (s : State) : (s.push v).flagC = s.flagC := rfl
@[simp] theorem State.push_flagZ (v : Byte) (s : State) : (s.push v).flagZ = s.flagZ := rfl
@[simp] theorem State.push_flagI (v : Byte) (s : State) : (s.push v).flagI = s.flagI := rfl
@[simp] theorem State.push_flagD (v : Byte) (s : State) : (s.push v).flagD = s.flagD := rfl
@[simp] theorem State.push_flagV (v : Byte) (s : State) : (s.push v).flagV = s.flagV := rfl
@[simp] theorem State.push_flagN (v : Byte) (s : State) : (s.push v).flagN = s.flagN := rfl
@[simp] theorem State.push_nmiPending (v : Byte) (s : State) : (s.push v).nmiPending = s.nmiPending := rfl
@[simp] theorem State.push_halted (v : Byte) (s : State) : (s.push v).halted = s.halted := rfl
@[simp] theorem State.push_irqLine (v : Byte) (s : State) : (s.push v).irqLine = s.irqLine := rfl
@[simp] theorem State.push_mem (v : Byte) (s : State) : (s.push v).mem = if s.isDevice s.stackAddr then s.mem else s.mem.write s.stackAddr.toNat v := rfl
@[simp] theorem State.push_devices (v : Byte) (s : State) : (s.push v).devices = s.devices := rfl
@[simp] theorem State.push_draws (v : Byte) (s : State) : (s.push v).draws = s.draws := rfl
@[simp] theorem State.push_params (v : Byte) (s : State) : (s.push v).params = s.params := rfl
@[simp] theorem State.push_cycles (v : Byte) (s : State) : (s.push v).cycles = s.cycles := rfl
@[simp] theorem State.push_trace (v : Byte) (s : State) : (s.push v).trace = s.trace ++ [⟨.write, s.stackAddr, v⟩] := rfl
@[simp] theorem State.push_isDevice (v : Byte) (s : State) (d : Addr) : (s.push v).isDevice d = s.isDevice d := by simp [State.isDevice]

/-! ### pull -/

@[simp] theorem State.pull_a (s : State) : (s.pull.2).a = s.a := rfl
@[simp] theorem State.pull_x (s : State) : (s.pull.2).x = s.x := rfl
@[simp] theorem State.pull_y (s : State) : (s.pull.2).y = s.y := rfl
@[simp] theorem State.pull_sp (s : State) : (s.pull.2).sp = s.sp + 1 := rfl
@[simp] theorem State.pull_pc (s : State) : (s.pull.2).pc = s.pc := rfl
@[simp] theorem State.pull_flagC (s : State) : (s.pull.2).flagC = s.flagC := rfl
@[simp] theorem State.pull_flagZ (s : State) : (s.pull.2).flagZ = s.flagZ := rfl
@[simp] theorem State.pull_flagI (s : State) : (s.pull.2).flagI = s.flagI := rfl
@[simp] theorem State.pull_flagD (s : State) : (s.pull.2).flagD = s.flagD := rfl
@[simp] theorem State.pull_flagV (s : State) : (s.pull.2).flagV = s.flagV := rfl
@[simp] theorem State.pull_flagN (s : State) : (s.pull.2).flagN = s.flagN := rfl
@[simp] theorem State.pull_nmiPending (s : State) : (s.pull.2).nmiPending = s.nmiPending := rfl
@[simp] theorem State.pull_halted (s : State) : (s.pull.2).halted = s.halted := rfl
@[simp] theorem State.pull_irqLine (s : State) : (s.pull.2).irqLine = s.irqLine := rfl
@[simp] theorem State.pull_mem (s : State) : (s.pull.2).mem = s.mem := rfl
@[simp] theorem State.pull_devices (s : State) : (s.pull.2).devices = s.devices := rfl
@[simp] theorem State.pull_params (s : State) : (s.pull.2).params = s.params := rfl
@[simp] theorem State.pull_cycles (s : State) : (s.pull.2).cycles = s.cycles := rfl
@[simp] theorem State.pull_isDevice (s : State) (d : Addr) : (s.pull.2).isDevice d = s.isDevice d := by simp [State.isDevice]

/-! ### jumpVector -/

@[simp] theorem State.jumpVector_a (v : Addr) (s : State) : (s.jumpVector v).a = s.a := by simp [State.jumpVector]
@[simp] theorem State.jumpVector_x (v : Addr) (s : State) : (s.jumpVector v).x = s.x := by simp [State.jumpVector]
@[simp] theorem State.jumpVector_y (v : Addr) (s : State) : (s.jumpVector v).y = s.y := by simp [State.jumpVector]
@[simp] theorem State.jumpVector_sp (v : Addr) (s : State) : (s.jumpVector v).sp = s.sp := by simp [State.jumpVector]
@[simp] theorem State.jumpVector_flagC (v : Addr) (s : State) : (s.jumpVector v).flagC = s.flagC := by simp [State.jumpVector]
@[simp] theorem State.jumpVector_flagZ (v : Addr) (s : State) : (s.jumpVector v).flagZ = s.flagZ := by simp [State.jumpVector]
@[simp] theorem State.jumpVector_flagI (v : Addr) (s : State) : (s.jumpVector v).flagI = s.flagI := by simp [State.jumpVector]
@[simp] theorem State.jumpVector_flagD (v : Addr) (s : State) : (s.jumpVector v).flagD = s.flagD := by simp [State.jumpVector]
@[simp] theorem State.jumpVector_flagV (v : Addr) (s : State) : (s.jumpVector v).flagV = s.flagV := by simp [State.jumpVector]
@[simp] theorem State.jumpVector_flagN (v : Addr) (s : State) : (s.jumpVector v).flagN = s.flagN := by simp [State.jumpVector]
@[simp] theorem State.jumpVector_nmiPending (v : Addr) (s : State) : (s.jumpVector v).nmiPending = s.nmiPending := by simp [State.jumpVector]
@[simp] theorem State.jumpVector_halted (v : Addr) (s : State) : (s.jumpVector v).halted = s.halted := by simp [State.jumpVector]
@[simp] theorem State.jumpVector_irqLine (v : Addr) (s : State) : (s.jumpVector v).irqLine = s.irqLine := by simp [State.jumpVector]
@[simp] theorem State.jumpVector_mem (v : Addr) (s : State) : (s.jumpVector v).mem = s.mem := by simp [State.jumpVector]
@[simp] theorem State.jumpVector_devices (v : Addr) (s : State) : (s.jumpVector v).devices = s.devices := by simp [State.jumpVector]
@[simp] theorem State.jumpVector_params (v : Addr) (s : State) : (s.jumpVector v).params = s.params := by simp [State.jumpVector]
@[simp] theorem State.jumpVector_cycles (v : Addr) (s : State) : (s.jumpVector v).cycles = s.cycles := by simp [State.jumpVector]
@[simp] theorem State.jumpVector_isDevice (v : Addr) (s : State) (d : Addr) : (s.jumpVector v).isDevice d = s.isDevice d := by simp [State.isDevice]

/-! ### pushPc -/

@[simp] theorem State.pushPc_a (s : State) : (s.pushPc).a = s.a := by simp [State.pushPc]
@[simp] theorem State.pushPc_x (s : State) : (s.pushPc).x = s.x := by simp [State.pushPc]
@[simp] theorem State.pushPc_y (s : State) : (s.pushPc).y = s.y := by simp [State.pushPc]
@[simp] theorem State.pushPc_sp (s : State) : (s.pushPc).sp = s.sp - 1 - 1 := by simp [State.pushPc]
@[simp] theorem State.pushPc_pc (s : State) : (s.pushPc).pc = s.pc := by simp [State.pushPc]
@[simp] theorem State.pushPc_flagC (s : State) : (s.pushPc).flagC = s.flagC := by simp [State.pushPc]
@[simp] theorem State.pushPc_flagZ (s : State) : (s.pushPc).flagZ = s.flagZ := by simp [State.pushPc]
@[simp] theorem State.pushPc_flagI (s : State) : (s.pushPc).flagI = s.flagI := by simp [State.pushPc]
@[simp] theorem State.pushPc_flagD (s : State) : (s.pushPc).flagD = s.flagD := by simp [State.pushPc]
@[simp] theorem State.pushPc_flagV (s : State) : (s.pushPc).flagV = s.flagV := by simp [State.pushPc]
@[simp] theorem State.pushPc_flagN (s : State) : (s.pushPc).flagN = s.flagN := by simp [State.pushPc]
@[simp] theorem State.pushPc_nmiPending (s : State) : (s.pushPc).nmiPending = s.nmiPending := by simp [State.pushPc]
@[simp] theorem State.pushPc_halted (s : State) : (s.pushPc).halted = s.halted := by simp [State.pushPc]
@[simp] theorem State.pushPc_irqLine (s : State) : (s.pushPc).irqLine = s.irqLine := by simp [State.pushPc]
@[simp] theorem State.pushPc_devices (s : State) : (s.pushPc).devices = s.devices := by simp [State.pushPc]
@[simp] theorem State.pushPc_draws (s : State) : (s.pushPc).draws = s.draws := by simp [State.pushPc]
@[simp] theorem State.pushPc_params (s : State) : (s.pushPc).params = s.params := by simp [State.pushPc]
@[simp] theorem State.pushPc_cycles (s : State) : (s.pushPc).cycles = s.cycles := by simp [State.pushPc]
@[simp] theorem State.pushPc_isDevice (s : State) (d : Addr) : (s.pushPc).isDevice d = s.isDevice d := by simp [State.isDevice]

/-! ### pullPc -/

@[simp] theorem State.pullPc_a (s : State) : (s.pullPc).a = s.a := by simp [State.pullPc]
@[simp] theorem State.pullPc_x (s : State) : (s.pullPc).x = s.x := by simp [State.pullPc]
@[simp] theorem State.pullPc_y (s : State) : (s.pullPc).y = s.y := by simp [State.pullPc]
@[simp] theorem State.pullPc_sp (s : State) : (s.pullPc).sp = s.sp + 1 + 1 := by simp [State.pullPc]
@[simp] theorem State.pullPc_flagC (s : State) : (s.pullPc).flagC = s.flagC := by simp [State.pullPc]
@[simp] theorem State.pullPc_flagZ (s : State) : (s.pullPc).flagZ = s.flagZ := by simp [State.pullPc]
@[simp] theorem State.pullPc_flagI (s : State) : (s.pullPc).flagI = s.flagI := by simp [State.pullPc]
@[simp] theorem State.pullPc_flagD (s : State) : (s.pullPc).flagD = s.flagD := by simp [State.pullPc]
@[simp] theorem State.pullPc_flagV (s : State) : (s.pullPc).flagV = s.flagV := by simp [State.pullPc]
@[simp] theorem State.pullPc_flagN (s : State) : (s.pullPc).flagN = s.flagN := by simp [State.pullPc]
@[simp] theorem State.pullPc_nmiPending (s : State) : (s.pullPc).nmiPending = s.nmiPending := by simp [State.pullPc]
@[simp] theorem State.pullPc_halted (s : State) : (s.pullPc).halted = s.halted := by simp [State.pullPc]
@[simp] theorem State.pullPc_irqLine (s : State) : (s.pullPc).irqLine = s.irqLine := by simp [State.pullPc]
@[simp] theorem State.pullPc_mem (s : State) : (s.pullPc).mem = s.mem := by simp [State.pullPc]
@[simp] theorem State.pullPc_devices (s : State) : (s.pullPc).devices = s.devices := by simp [State.pullPc]
@[simp] theorem State.pullPc_params (s : State) : (s.pullPc).params = s.params := by simp [State.pullPc]
@[simp] theorem State.pullPc_cycles (s : State) : (s.pullPc).cycles = s.cycles := by simp [State.pullPc]
@[simp] theorem State.pullPc_isDevice (s : State) (d : Addr) : (s.pullPc).isDevice d = s.isDevice d := by simp [State.isDevice]

/-! ### enterHandler -/

@[simp] theorem State.enterHandler_a (b : Bool) (v : Addr) (s : State) : (s.enterHandler b v).a = s.a := by simp [State.enterHandler]
@[simp] theorem State.enterHandler_x (b : Bool) (v : Addr) (s : State) : (s.enterHandler b v).x = s.x := by simp [State.enterHandler]
@[simp] theorem State.enterHandler_y (b : Bool) (v : Addr) (s : State) : (s.enterHandler b v).y = s.y := by simp [State.enterHandler]
@[simp] theorem State.enterHandler_sp (b : Bool) (v : Addr) (s : State) : (s.enterHandler b v).sp = s.sp - 1 - 1 - 1 := by simp [State.enterHandler]
@[simp] theorem State.enterHandler_flagC (b : Bool) (v : Addr) (s : State) : (s.enterHandler b v).flagC = s.flagC := by simp [State.enterHandler]
@[simp] theorem State.enterHandler_flagZ (b : Bool) (v : Addr) (s : State) : (s.enterHandler b v).flagZ = s.flagZ := by simp [State.enterHandler]
@[simp] theorem State.enterHandler_flagI (b : Bool) (v : Addr) (s : State) : (s.enterHandler b v).flagI = true := by simp [State.enterHandler]
@[simp] theorem State.enterHandler_flagD (b : Bool) (v : Addr) (s : State) : (s.enterHandler b v).flagD = s.flagD := by simp [State.enterHandler]
@[simp] theorem State.enterHandler_flagV (b : Bool) (v : Addr) (s : State) : (s.enterHandler b v).flagV = s.flagV := by simp [State.enterHandler]
@[simp] theorem State.enterHandler_flagN (b : Bool) (v : Addr) (s : State) : (s.enterHandler b v).flagN = s.flagN := by simp [State.enterHandler]
@[simp] theorem State.enterHandler_nmiPending (b : Bool) (v : Addr) (s : State) : (s.enterHandler b v).nmiPending = s.nmiPending := by simp [State.enterHandler]
@[simp] theorem State.enterHandler_halted (b : Bool) (v : Addr) (s : State) : (s.enterHandler b v).halted = s.halted := by simp [State.enterHandler]
@[simp] theorem State.enterHandler_irqLine (b : Bool) (v : Addr) (s : State) : (s.enterHandler b v).irqLine = s.irqLine := by simp [State.enterHandler]
@[simp] theorem State.enterHandler_devices (b : Bool) (v : Addr) (s : State) : (s.enterHandler b v).devices = s.devices := by simp [State.enterHandler]
@[simp] theorem State.enterHandler_params (b : Bool) (v : Addr) (s : State) : (s.enterHandler b v).params = s.params := by simp [State.enterHandler]
@[simp] theorem State.enterHandler_cycles (b : Bool) (v : Addr) (s : State) : (s.enterHandler b v).cycles = s.cycles := by simp [State.enterHandler]
@[simp] theorem State.enterHandler_isDevice (b : Bool) (v : Addr) (s : State) (d : Addr) : (s.enterHandler b v).isDevice d = s.isDevice d := by simp [State.isDevice]

/-! ### interruptService -/

@[simp] theorem State.interruptService_a (v : Addr) (s : State) : (s.interruptService v).a = s.a := by simp [State.interruptService]
@[simp] theorem State.interruptService_x (v : Addr) (s : State) : (s.interruptService v).x = s.x := by simp [State.interruptService]
@[simp] theorem State.interruptService_y (v : Addr) (s : State) : (s.interruptService v).y = s.y := by simp [State.interruptService]
@[simp] theorem State.interruptService_sp (v : Addr) (s : State) : (s.interruptService v).sp = s.sp - 1 - 1 - 1 := by simp [State.interruptService]
@[simp] theorem State.interruptService_flagC (v : Addr) (s : State) : (s.interruptService v).flagC = s.flagC := by simp [State.interruptService]
@[simp] theorem State.interruptService_flagZ (v : Addr) (s : State) : (s.interruptService v).flagZ = s.flagZ := by simp [State.interruptService]
@[simp] theorem State.interruptService_flagI (v : Addr) (s : State) : (s.interruptService v).flagI = true := by simp [State.interruptService]
@[simp] theorem State.interruptService_flagD (v : Addr) (s : State) : (s.interruptService v).flagD = s.flagD := by simp [State.interruptService]
@[simp] theorem State.interruptService_flagV (v : Addr) (s : State) : (s.interruptService v).flagV = s.flagV := by simp [State.interruptService]
@[simp] theorem State.interruptService_flagN (v : Addr) (s : State) : (s.interruptService v).flagN = s.flagN := by simp [State.interruptService]
@[simp] theorem State.interruptService_nmiPending (v : Addr) (s : State) : (s.interruptService v).nmiPending = s.nmiPending := by simp [State.interruptService]
@[simp] theorem State.interruptService_halted (v : Addr) (s : State) : (s.interruptService v).halted = s.halted := by simp [State.interruptService]
@[simp] theorem State.interruptService_irqLine (v : Addr) (s : State) : (s.interruptService v).irqLine = s.irqLine := by simp [State.interruptService]
@[simp] theorem State.interruptService_devices (v : Addr) (s : State) : (s.interruptService v).devices = s.devices := by simp [State.interruptService]
@[simp] theorem State.interruptService_params (v : Addr) (s : State) : (s.interruptService v).params = s.params := by simp [State.interruptService]
@[simp] theorem State.interruptService_cycles (v : Addr) (s : State) : (s.interruptService v).cycles = 7 := by simp [State.interruptService]
@[simp] theorem State.interruptService_isDevice (v : Addr) (s : State) (d : Addr) : (s.interruptService v).isDevice d = s.isDevice d := by simp [State.isDevice]

/-! ### resetSequence -/

@[simp] theorem State.resetSequence_a (s : State) : (s.resetSequence).a = s.a := by simp [State.resetSequence]
@[simp] theorem State.resetSequence_x (s : State) : (s.resetSequence).x = s.x := by simp [State.resetSequence]
@[simp] theorem State.resetSequence_y (s : State) : (s.resetSequence).y = s.y := by simp [State.resetSequence]
@[simp] theorem State.resetSequence_sp (s : State) : (s.resetSequence).sp = 0xFD := by simp [State.resetSequence]
@[simp] theorem State.resetSequence_flagC (s : State) : (s.resetSequence).flagC = s.flagC := by simp [State.resetSequence]
@[simp] theorem State.resetSequence_flagZ (s : State) : (s.resetSequence).flagZ = s.flagZ := by simp [State.resetSequence]
@[simp] theorem State.resetSequence_flagI (s : State) : (s.resetSequence).flagI = true := by simp [State.resetSequence]
@[simp] theorem State.resetSequence_flagD (s : State) : (s.resetSequence).flagD = s.flagD := by simp [State.resetSequence]
@[simp] theorem State.resetSequence_flagV (s : State) : (s.resetSequence).flagV = s.flagV := by simp [State.resetSequence]
@[simp] theorem State.resetSequence_flagN (s : State) : (s.resetSequence).flagN = s.flagN := by simp [State.resetSequence]
@[simp] theorem State.resetSequence_nmiPending (s : State) : (s.resetSequence).nmiPending = false := by simp [State.resetSequence]
@[simp] theorem State.resetSequence_halted (s : State) : (s.resetSequence).halted = false := by simp [State.resetSequence]
@[simp] theorem State.resetSequence_irqLine (s : State) : (s.resetSequence).irqLine = s.irqLine := by simp [State.resetSequence]
@[simp] theorem State.resetSequence_mem (s : State) : (s.resetSequence).mem = s.mem := by simp [State.resetSequence]
@[simp] theorem State.resetSequence_devices (s : State) : (s.resetSequence).devices = s.devices := by simp [State.resetSequence]
@[simp] theorem State.resetSequence_params (s : State) : (s.resetSequence).params = s.params := by simp [State.resetSequence]
@[simp] theorem State.resetSequence_cycles (s : State) : (s.resetSequence).cycles = 7 := by simp [State.resetSequence]
@[simp] theorem State.resetSequence_isDevice (s : State) (d : Addr) : (s.resetSequence).isDevice d = s.isDevice d := by simp [State.isDevice]

end Sys2Proof.Machine
end

