-- ==== Sys2Proof/Laws/Operands.lean ====
section
/-! SUPPORT. What the address cycles and the operand reads can do: whatever the mode and the access class, they move
PC past the operand bytes and touch the trace, the draws and the cycle count; every register, flag, latch and
byte of memory stays. -/

namespace Sys2Proof.Machine

/-- How many operand bytes a memory operand has (R81). -/
def Place.size : Place → Nat
  | .zp _ | .zpX _ | .zpY _ | .indX _ | .indY _ => 1
  | .abs _ _ | .absX _ _ | .absY _ _ => 2

/-- How many operand bytes a class-read instruction's operand has (R81). -/
def Source.size : Source → Nat
  | .imm _ => 1
  | .mem p => p.size

@[simp] theorem indexed_a (cls : Access) (idx : Byte) (base : Addr) (s : State) :
    (indexed cls idx base s).st.a = s.a := by
  cases cls <;> simp only [indexed] <;> (try split) <;> simp
@[simp] theorem indexed_x (cls : Access) (idx : Byte) (base : Addr) (s : State) :
    (indexed cls idx base s).st.x = s.x := by
  cases cls <;> simp only [indexed] <;> (try split) <;> simp
@[simp] theorem indexed_y (cls : Access) (idx : Byte) (base : Addr) (s : State) :
    (indexed cls idx base s).st.y = s.y := by
  cases cls <;> simp only [indexed] <;> (try split) <;> simp
@[simp] theorem indexed_sp (cls : Access) (idx : Byte) (base : Addr) (s : State) :
    (indexed cls idx base s).st.sp = s.sp := by
  cases cls <;> simp only [indexed] <;> (try split) <;> simp
@[simp] theorem indexed_flagC (cls : Access) (idx : Byte) (base : Addr) (s : State) :
    (indexed cls idx base s).st.flagC = s.flagC := by
  cases cls <;> simp only [indexed] <;> (try split) <;> simp
@[simp] theorem indexed_flagZ (cls : Access) (idx : Byte) (base : Addr) (s : State) :
    (indexed cls idx base s).st.flagZ = s.flagZ := by
  cases cls <;> simp only [indexed] <;> (try split) <;> simp
@[simp] theorem indexed_flagI (cls : Access) (idx : Byte) (base : Addr) (s : State) :
    (indexed cls idx base s).st.flagI = s.flagI := by
  cases cls <;> simp only [indexed] <;> (try split) <;> simp
@[simp] theorem indexed_flagD (cls : Access) (idx : Byte) (base : Addr) (s : State) :
    (indexed cls idx base s).st.flagD = s.flagD := by
  cases cls <;> simp only [indexed] <;> (try split) <;> simp
@[simp] theorem indexed_flagV (cls : Access) (idx : Byte) (base : Addr) (s : State) :
    (indexed cls idx base s).st.flagV = s.flagV := by
  cases cls <;> simp only [indexed] <;> (try split) <;> simp
@[simp] theorem indexed_flagN (cls : Access) (idx : Byte) (base : Addr) (s : State) :
    (indexed cls idx base s).st.flagN = s.flagN := by
  cases cls <;> simp only [indexed] <;> (try split) <;> simp
@[simp] theorem indexed_nmiPending (cls : Access) (idx : Byte) (base : Addr) (s : State) :
    (indexed cls idx base s).st.nmiPending = s.nmiPending := by
  cases cls <;> simp only [indexed] <;> (try split) <;> simp
@[simp] theorem indexed_halted (cls : Access) (idx : Byte) (base : Addr) (s : State) :
    (indexed cls idx base s).st.halted = s.halted := by
  cases cls <;> simp only [indexed] <;> (try split) <;> simp
@[simp] theorem indexed_irqLine (cls : Access) (idx : Byte) (base : Addr) (s : State) :
    (indexed cls idx base s).st.irqLine = s.irqLine := by
  cases cls <;> simp only [indexed] <;> (try split) <;> simp
@[simp] theorem indexed_mem (cls : Access) (idx : Byte) (base : Addr) (s : State) :
    (indexed cls idx base s).st.mem = s.mem := by
  cases cls <;> simp only [indexed] <;> (try split) <;> simp
@[simp] theorem indexed_devices (cls : Access) (idx : Byte) (base : Addr) (s : State) :
    (indexed cls idx base s).st.devices = s.devices := by
  cases cls <;> simp only [indexed] <;> (try split) <;> simp
@[simp] theorem indexed_params (cls : Access) (idx : Byte) (base : Addr) (s : State) :
    (indexed cls idx base s).st.params = s.params := by
  cases cls <;> simp only [indexed] <;> (try split) <;> simp
@[simp] theorem indexed_pc (cls : Access) (idx : Byte) (base : Addr) (s : State) :
    (indexed cls idx base s).st.pc = s.pc := by
  cases cls <;> simp only [indexed] <;> (try split) <;> simp

@[simp] theorem address_a (cls : Access) (p : Place) (s : State) : (address cls p s).st.a = s.a := by
  cases p <;> simp [address, zeroPage, zeroPageIndexed, absolute, absoluteIndexed, zeroPagePointer, indexedIndirect,
    indirectIndexed]
@[simp] theorem address_x (cls : Access) (p : Place) (s : State) : (address cls p s).st.x = s.x := by
  cases p <;> simp [address, zeroPage, zeroPageIndexed, absolute, absoluteIndexed, zeroPagePointer, indexedIndirect,
    indirectIndexed]
@[simp] theorem address_y (cls : Access) (p : Place) (s : State) : (address cls p s).st.y = s.y := by
  cases p <;> simp [address, zeroPage, zeroPageIndexed, absolute, absoluteIndexed, zeroPagePointer, indexedIndirect,
    indirectIndexed]
@[simp] theorem address_sp (cls : Access) (p : Place) (s : State) : (address cls p s).st.sp = s.sp := by
  cases p <;> simp [address, zeroPage, zeroPageIndexed, absolute, absoluteIndexed, zeroPagePointer, indexedIndirect,
    indirectIndexed]
@[simp] theorem address_flagC (cls : Access) (p : Place) (s : State) : (address cls p s).st.flagC = s.flagC := by
  cases p <;> simp [address, zeroPage, zeroPageIndexed, absolute, absoluteIndexed, zeroPagePointer, indexedIndirect,
    indirectIndexed]
@[simp] theorem address_flagZ (cls : Access) (p : Place) (s : State) : (address cls p s).st.flagZ = s.flagZ := by
  cases p <;> simp [address, zeroPage, zeroPageIndexed, absolute, absoluteIndexed, zeroPagePointer, indexedIndirect,
    indirectIndexed]
@[simp] theorem address_flagI (cls : Access) (p : Place) (s : State) : (address cls p s).st.flagI = s.flagI := by
  cases p <;> simp [address, zeroPage, zeroPageIndexed, absolute, absoluteIndexed, zeroPagePointer, indexedIndirect,
    indirectIndexed]
@[simp] theorem address_flagD (cls : Access) (p : Place) (s : State) : (address cls p s).st.flagD = s.flagD := by
  cases p <;> simp [address, zeroPage, zeroPageIndexed, absolute, absoluteIndexed, zeroPagePointer, indexedIndirect,
    indirectIndexed]
@[simp] theorem address_flagV (cls : Access) (p : Place) (s : State) : (address cls p s).st.flagV = s.flagV := by
  cases p <;> simp [address, zeroPage, zeroPageIndexed, absolute, absoluteIndexed, zeroPagePointer, indexedIndirect,
    indirectIndexed]
@[simp] theorem address_flagN (cls : Access) (p : Place) (s : State) : (address cls p s).st.flagN = s.flagN := by
  cases p <;> simp [address, zeroPage, zeroPageIndexed, absolute, absoluteIndexed, zeroPagePointer, indexedIndirect,
    indirectIndexed]
@[simp] theorem address_nmiPending (cls : Access) (p : Place) (s : State) : (address cls p s).st.nmiPending = s.nmiPending := by
  cases p <;> simp [address, zeroPage, zeroPageIndexed, absolute, absoluteIndexed, zeroPagePointer, indexedIndirect,
    indirectIndexed]
@[simp] theorem address_halted (cls : Access) (p : Place) (s : State) : (address cls p s).st.halted = s.halted := by
  cases p <;> simp [address, zeroPage, zeroPageIndexed, absolute, absoluteIndexed, zeroPagePointer, indexedIndirect,
    indirectIndexed]
@[simp] theorem address_irqLine (cls : Access) (p : Place) (s : State) : (address cls p s).st.irqLine = s.irqLine := by
  cases p <;> simp [address, zeroPage, zeroPageIndexed, absolute, absoluteIndexed, zeroPagePointer, indexedIndirect,
    indirectIndexed]
@[simp] theorem address_mem (cls : Access) (p : Place) (s : State) : (address cls p s).st.mem = s.mem := by
  cases p <;> simp [address, zeroPage, zeroPageIndexed, absolute, absoluteIndexed, zeroPagePointer, indexedIndirect,
    indirectIndexed]
@[simp] theorem address_devices (cls : Access) (p : Place) (s : State) : (address cls p s).st.devices = s.devices := by
  cases p <;> simp [address, zeroPage, zeroPageIndexed, absolute, absoluteIndexed, zeroPagePointer, indexedIndirect,
    indirectIndexed]
@[simp] theorem address_params (cls : Access) (p : Place) (s : State) : (address cls p s).st.params = s.params := by
  cases p <;> simp [address, zeroPage, zeroPageIndexed, absolute, absoluteIndexed, zeroPagePointer, indexedIndirect,
    indirectIndexed]
@[simp] theorem address_isDevice (cls : Access) (p : Place) (s : State) (a : Addr) :
    (address cls p s).st.isDevice a = s.isDevice a := by
  simp [State.isDevice]

/-- The address cycles move PC past the operand bytes (R24). -/
@[simp] theorem address_pc (cls : Access) (p : Place) (s : State) :
    (address cls p s).st.pc = s.pc + BitVec.ofNat 16 p.size := by
  cases p <;> simp [address, zeroPage, zeroPageIndexed, absolute, absoluteIndexed, zeroPagePointer, indexedIndirect,
    indirectIndexed, Place.size, BitVec.add_assoc]

@[simp] theorem readSource_a (src : Source) (s : State) : (readSource src s).2.a = s.a := by
  cases src <;> simp [readSource]
@[simp] theorem readSource_x (src : Source) (s : State) : (readSource src s).2.x = s.x := by
  cases src <;> simp [readSource]
@[simp] theorem readSource_y (src : Source) (s : State) : (readSource src s).2.y = s.y := by
  cases src <;> simp [readSource]
@[simp] theorem readSource_sp (src : Source) (s : State) : (readSource src s).2.sp = s.sp := by
  cases src <;> simp [readSource]
@[simp] theorem readSource_flagC (src : Source) (s : State) : (readSource src s).2.flagC = s.flagC := by
  cases src <;> simp [readSource]
@[simp] theorem readSource_flagZ (src : Source) (s : State) : (readSource src s).2.flagZ = s.flagZ := by
  cases src <;> simp [readSource]
@[simp] theorem readSource_flagI (src : Source) (s : State) : (readSource src s).2.flagI = s.flagI := by
  cases src <;> simp [readSource]
@[simp] theorem readSource_flagD (src : Source) (s : State) : (readSource src s).2.flagD = s.flagD := by
  cases src <;> simp [readSource]
@[simp] theorem readSource_flagV (src : Source) (s : State) : (readSource src s).2.flagV = s.flagV := by
  cases src <;> simp [readSource]
@[simp] theorem readSource_flagN (src : Source) (s : State) : (readSource src s).2.flagN = s.flagN := by
  cases src <;> simp [readSource]
@[simp] theorem readSource_nmiPending (src : Source) (s : State) : (readSource src s).2.nmiPending = s.nmiPending := by
  cases src <;> simp [readSource]
@[simp] theorem readSource_halted (src : Source) (s : State) : (readSource src s).2.halted = s.halted := by
  cases src <;> simp [readSource]
@[simp] theorem readSource_irqLine (src : Source) (s : State) : (readSource src s).2.irqLine = s.irqLine := by
  cases src <;> simp [readSource]
@[simp] theorem readSource_mem (src : Source) (s : State) : (readSource src s).2.mem = s.mem := by
  cases src <;> simp [readSource]
@[simp] theorem readSource_devices (src : Source) (s : State) : (readSource src s).2.devices = s.devices := by
  cases src <;> simp [readSource]
@[simp] theorem readSource_params (src : Source) (s : State) : (readSource src s).2.params = s.params := by
  cases src <;> simp [readSource]

/-- Reading `M` moves PC past the operand bytes (R24). -/
@[simp] theorem readSource_pc (src : Source) (s : State) :
    (readSource src s).2.pc = s.pc + BitVec.ofNat 16 src.size := by
  cases src <;> simp [readSource, Source.size]

end Sys2Proof.Machine
end

