-- ==== Sys2Proof/Laws/Exec.lean ====
section
/-! SUPPORT. What every arm of `exec` is, said once: the access shape of the instruction's row applied to the effect
of its mnemonic, behind the admission of R260 where the row is unofficial. A proof about an instruction cites
`exec_eq_shape` and unfolds neither `exec` nor the 256 meanings. -/

namespace Sys2Proof.Machine

/-- The shape of an instruction: how its operand is reached, and its effect. -/
inductive Shape where
  | read (f : Byte → State → State)
  | store (v : State → Byte)
  | rmw (f : Byte → State → Byte × State)
  | implied (f : State → State)
  | branch (cond : State → Bool)
  | unstable (newS : State → Option Byte) (v : State → Byte)
  | jam
  | jump
  | call
  | brk

/-- The shape of each mnemonic. `NOP*` is a read whose value is discarded; its implied forms are `effNop`. -/
def shapeOf : Mnemonic → Shape
  | .lda => .read State.loadA
  | .ldx => .read State.loadX
  | .ldy => .read State.loadY
  | .adc => .read effAdc
  | .sbc => .read effSbc
  | .and => .read effAnd
  | .ora => .read effOra
  | .eor => .read effEor
  | .cmp => .read effCmp
  | .cpx => .read effCpx
  | .cpy => .read effCpy
  | .bit => .read effBit
  | .lax => .read effLax
  | .las => .read effLas
  | .anc => .read effAnc
  | .alr => .read effAlr
  | .arr => .read effArr
  | .sbx => .read effSbx
  | .usbc => .read effUsbc
  | .ane => .read effAne
  | .lxa => .read effLxa
  | .nopStar => .read effNopStar
  | .sta => .store State.a
  | .stx => .store State.x
  | .sty => .store State.y
  | .sax => .store valSax
  | .inc => .rmw effInc
  | .dec => .rmw effDec
  | .asl => .rmw effAsl
  | .lsr => .rmw effLsr
  | .rol => .rmw effRol
  | .ror => .rmw effRor
  | .slo => .rmw effSlo
  | .rla => .rmw effRla
  | .sre => .rmw effSre
  | .rra => .rmw effRra
  | .dcp => .rmw effDcp
  | .isc => .rmw effIsc
  | .tax => .implied effTax
  | .tay => .implied effTay
  | .txa => .implied effTxa
  | .tya => .implied effTya
  | .tsx => .implied effTsx
  | .txs => .implied effTxs
  | .inx => .implied effInx
  | .iny => .implied effIny
  | .dex => .implied effDex
  | .dey => .implied effDey
  | .clc => .implied effClc
  | .cld => .implied effCld
  | .cli => .implied effCli
  | .clv => .implied effClv
  | .sec => .implied effSec
  | .sed => .implied effSed
  | .sei => .implied effSei
  | .nop => .implied effNop
  | .pha => .implied effPha
  | .php => .implied effPhp
  | .pla => .implied effPla
  | .plp => .implied effPlp
  | .rts => .implied effRts
  | .rti => .implied effRti
  | .bcc => .branch condBcc
  | .bcs => .branch condBcs
  | .beq => .branch condBeq
  | .bne => .branch condBne
  | .bmi => .branch condBmi
  | .bpl => .branch condBpl
  | .bvc => .branch condBvc
  | .bvs => .branch condBvs
  | .sha => .unstable spKept valSha
  | .shx => .unstable spKept valShx
  | .shy => .unstable spKept valShy
  | .tas => .unstable spTas valTas
  | .jam => .jam
  | .jmp => .jump
  | .jsr => .call
  | .brk => .brk

/-- The shape run on an instruction: its opcode, base cycles and operand taken from its row and its bytes. The
last arms of the two operand matches are reached by no instruction. -/
def runShape (sh : Shape) (i : Instr) (s : State) : Result :=
  match sh with
  | .read f =>
    match sourceOf i with
    | some src => readInstr i.opcode i.row.cycles src f s
    | none => impliedInstr i.opcode i.row.cycles effNop s
  | .store v =>
    match placeOf i with
    | some p => storeInstr i.opcode i.row.cycles p v s
    | none => .fault .internalConsistency
  | .rmw f =>
    match placeOf i with
    | some p => rmwInstr i.opcode i.row.cycles p f s
    | none => accInstr i.opcode i.row.cycles f s
  | .implied f => impliedInstr i.opcode i.row.cycles f s
  | .branch cond => branchInstr i.opcode i.row.cycles cond i.operandBytes.1 s
  | .unstable newS v =>
    match placeOf i with
    | some p => unstableStore i.opcode i.row.cycles p newS v s
    | none => .fault .internalConsistency
  | .jam => jamInstr i.opcode s
  | .jump =>
    match i.row.mode with
    | .ind => jmpIndirect i.opcode i.row.cycles i.operandBytes.1 i.operandBytes.2 s
    | _ => jmpAbsolute i.opcode i.row.cycles i.operandBytes.1 i.operandBytes.2 s
  | .call => jsrInstr i.opcode i.row.cycles i.operandBytes.1 s
  | .brk => brkInstr i.opcode i.row.cycles s

/-- R260 around a meaning: an official instruction runs, an unofficial one runs where it is admitted. -/
def gate (i : Instr) (s : State) (meaning : Result) : Result :=
  if i.row.official then meaning else admitted i.opcode s meaning

/-- Every arm of `exec`. -/
theorem exec_eq_shape (i : Instr) (s : State) : exec i s = gate i s (runShape (shapeOf i.mnemonic) i s) := by
  cases i <;> rfl

/-! ### The table's facts about an instruction's operand -/

/-- The modes whose address can cross a page (R112). -/
def Place.pageSensitive : Place → Bool
  | .absX _ _ | .absY _ _ | .indY _ => true
  | .zp _ | .zpX _ | .zpY _ | .abs _ _ | .indX _ => false

/-- An instruction with a memory operand is as long as its opcode and the operand bytes, and carries the penalty
exactly in class read and a page-sensitive mode (R82, R116). -/
theorem place_row {i : Instr} {p : Place} (h : placeOf i = some p) :
    i.row.bytes = p.size + 1 ∧
      (i.row.access ≠ .none → i.row.penalty = (i.row.access == .read && p.pageSensitive)) := by
  cases i <;> cases h <;> exact ⟨rfl, fun _ => rfl⟩

/-- A class-read instruction has a source: the immediate byte, or its memory operand. -/
theorem read_source {i : Instr} {f : Byte → State → State} (h : shapeOf i.mnemonic = .read f) (hm : i.row.mode ≠ .imp) :
    (∃ n, sourceOf i = some (.imm n) ∧ placeOf i = none ∧ i.row.bytes = 2 ∧ i.row.penalty = false) ∨
      (∃ p, sourceOf i = some (.mem p) ∧ placeOf i = some p ∧ i.row.access = .read) := by
  cases i <;> cases h <;>
    first
    | exact .inl ⟨_, rfl, rfl, rfl, rfl⟩
    | exact .inr ⟨_, rfl, rfl, rfl⟩
    | exact absurd rfl hm

/-- The implied `NOP*` is the one read without a source. -/
theorem read_implied {i : Instr} {f : Byte → State → State} (h : shapeOf i.mnemonic = .read f) (hm : i.row.mode = .imp) :
    f = effNopStar ∧ sourceOf i = none ∧ placeOf i = none ∧ i.row.bytes = 1 ∧ i.row.penalty = false := by
  cases i <;> cases h <;> first | exact ⟨rfl, rfl, rfl, rfl, rfl⟩ | cases hm

/-- A class-write instruction has a memory operand. -/
theorem store_place {i : Instr} {v : State → Byte} (h : shapeOf i.mnemonic = .store v) :
    ∃ p, placeOf i = some p ∧ i.row.access = .write := by
  cases i <;> cases h <;> exact ⟨_, rfl, rfl⟩

/-- So has a high-byte AND store, in a page-sensitive mode. -/
theorem unstable_place {i : Instr} {newS : State → Option Byte} {v : State → Byte} (h : shapeOf i.mnemonic = .unstable newS v) :
    ∃ p, placeOf i = some p ∧ i.row.access = .write ∧ i.row.official = false := by
  cases i <;> cases h <;> exact ⟨_, rfl, rfl, rfl⟩

/-- A read-modify-write instruction has a memory operand or is in accumulator mode. -/
theorem rmw_place {i : Instr} {f : Byte → State → Byte × State} (h : shapeOf i.mnemonic = .rmw f) :
    (i.row.mode ≠ .acc ∧ ∃ p, placeOf i = some p ∧ i.row.access = .rmw) ∨
      (i.row.mode = .acc ∧ placeOf i = none ∧ i.row.bytes = 1 ∧ i.row.penalty = false) := by
  cases i <;> cases h <;>
    first
    | exact .inl ⟨(fun h => by cases h), _, rfl, rfl⟩
    | exact .inr ⟨rfl, rfl, rfl, rfl⟩

/-- An implied instruction is one byte long. -/
theorem implied_row {i : Instr} {f : State → State} (h : shapeOf i.mnemonic = .implied f) :
    placeOf i = none ∧ i.row.bytes = 1 ∧ i.row.penalty = false := by
  cases i <;> cases h <;> exact ⟨rfl, rfl, rfl⟩

/-! ### The gate -/

theorem gate_wellFormed {i : Instr} {s : State} {r : Result} (h : i.wellFormed s.params = true) : gate i s r = r := by
  unfold gate admitted
  split
  · rfl
  · next ho => simp [Instr.wellFormed, ho] at h; simp [State.admits, h]

theorem gate_refused {i : Instr} {s : State} {r : Result} (h : i.wellFormed s.params = false) :
    gate i s r = .refused (.unimplementedOpcode i.opcode (s.fetchedOnly i.opcode)) := by
  simp only [Instr.wellFormed, Bool.or_eq_false_iff] at h
  simp only [gate, admitted, State.admits, h.1, h.2]
  rfl

theorem wellFormed_of_official {i : Instr} (p : Params) (h : i.row.official = true) : i.wellFormed p = true := by
  simp [Instr.wellFormed, h]

theorem wellFormed_of_admits {i : Instr} {s : State} (h : s.admits i.opcode = true) : i.wellFormed s.params = true := by
  simp only [Instr.wellFormed, State.admits] at *; rw [h, Bool.or_true]

/-! ### The state a shape's effect is applied to -/

/-- The cycles the address cycles add: one on a crossing of class read in a page-sensitive mode (R116). -/
theorem address_cycles (cls : Access) (p : Place) (s : State) :
    (address cls p s).st.cycles =
      s.cycles + if cls == .read && p.pageSensitive && (address cls p s).crossed then 1 else 0 := by
  cases cls <;> cases p <;>
    simp [address, zeroPage, zeroPageIndexed, absolute, absoluteIndexed, zeroPagePointer, indexedIndirect,
      indirectIndexed, indexed, Place.pageSensitive, Target.crossed] <;> (try split) <;> simp_all

/-- `s` with PC past the instruction, its cycle count, and the trace and draws `tr` and `d`. -/
def State.ran (i : Instr) (tr : List BusEntry) (d : Nat) (s : State) : State :=
  { s with pc := nextPc i s, cycles := cycleCount i s, trace := tr, draws := d }

theorem nextPc_eq {i : Instr} {s : State} {k : Nat} (h : i.row.bytes = k + 1) :
    s.pc + 1 + BitVec.ofNat 16 k = nextPc i s := by
  rw [nextPc, h, BitVec.ofNat_add, BitVec.add_assoc]
  congr 1
  exact BitVec.add_comm _ _

/-- The address cycles of an instruction, as one state. -/
theorem address_ran {i : Instr} {s : State} {p : Place} (h : placeOf i = some p) (ha : i.row.access ≠ .none) :
    ∃ tr d, (address i.row.access p (begun i s)).st = s.ran i tr d := by
  refine ⟨(address i.row.access p (begun i s)).st.trace, (address i.row.access p (begun i s)).st.draws, ?_⟩
  apply State.ext <;> try simp [begun, State.ran]; done
  · simpa [State.ran, begun] using nextPc_eq (place_row h).1
  · rw [address_cycles]
    simp only [begun, State.beginInstr_cycles, State.ran, cycleCount, crosses, targetOf, h, Option.map_some,
      (place_row h).2 ha]
    rfl

/-- One-byte instructions: the state after the opcode fetch and the dummy read of the next byte (R101). -/
theorem implied_ran {i : Instr} {s : State} (h : placeOf i = none ∧ i.row.bytes = 1 ∧ i.row.penalty = false) :
    ∃ tr d, (begun i s).dummyRead (begun i s).pc = s.ran i tr d := by
  refine ⟨((begun i s).dummyRead (begun i s).pc).trace, ((begun i s).dummyRead (begun i s).pc).draws, ?_⟩
  apply State.ext <;> try simp [begun, State.ran]; done
  · simp [begun, State.ran, nextPc, h.2.1]
  · simp [begun, State.ran, cycleCount, h.2.2]

/-- What a class-read instruction does: its effect on `M` and on the state past it. Its last access is the read of its
effective address, which a plain address answers with its byte (R113). -/
theorem exec_read {i : Instr} {s : State} {f : Byte → State → State} (h : shapeOf i.mnemonic = .read f)
    (hw : i.wellFormed s.params = true) :
    ∃ tr d, exec i s = .next (f (operandValue i s) (s.ran i tr d)) ∧
      (placeOf i ≠ none → tr.getLast? = some ⟨.read, operandAddr i s, operandValue i s⟩ ∧
        (s.isDevice (operandAddr i s) = false → operandValue i s = s.mem.read (operandAddr i s).toNat)) := by
  rw [exec_eq_shape, gate_wellFormed hw, h]
  by_cases hm : i.row.mode = .imp
  · obtain ⟨rfl, hs, hp⟩ := read_implied h hm
    obtain ⟨tr, d, hr⟩ := implied_ran (s := s) hp
    refine ⟨tr, d, ?_, fun hn => absurd hp.1 hn⟩
    simp only [runShape, hs, impliedInstr]
    exact congrArg Host.Outcome.next hr
  · obtain ⟨n, hs, hp, hb, hpen⟩ | ⟨p, hs, hp, ha⟩ := read_source h hm
    · have hr : (begun i s).fetched n = s.ran i ((begun i s).fetched n).trace ((begun i s).fetched n).draws := by
        apply State.ext <;> try simp [begun, State.ran]; done
        · simpa [State.ran, begun] using nextPc_eq (s := s) hb
        · simp [begun, State.ran, cycleCount, hpen]
      refine ⟨((begun i s).fetched n).trace, ((begun i s).fetched n).draws, ?_, fun hn => absurd hp hn⟩
      rw [← hr]
      simp [runShape, hs, readInstr, readSource, operandValue, begun]
    · obtain ⟨tr, d, hr⟩ := address_ran (s := s) hp (by simp [ha])
      rw [ha] at hr
      have hv : operandValue i s = (s.ran i tr d).peek (operandAddr i s) := by
        simp only [operandValue, hs, readSource, operandAddr, targetOf, hp, Option.map_some, ha, State.busRead_fst, hr]
      refine ⟨((s.ran i tr d).logRead (operandAddr i s) (operandValue i s)).trace,
        ((s.ran i tr d).logRead (operandAddr i s) (operandValue i s)).draws, ?_, fun _ => ⟨by simp, fun hd => ?_⟩⟩
      · simp only [runShape, hs, readInstr, operandValue, operandAddr, targetOf, hp, Option.map_some, ha, readSource,
          State.busRead_fst, State.busRead_snd]
        rw [show s.beginInstr i.opcode i.row.cycles = begun i s from rfl, hr]
        rfl
      · rw [hv, State.peek_plain (by simpa [State.isDevice, State.ran] using hd)]
        rfl

/-- What a class-write instruction does (R114). -/
theorem exec_store {i : Instr} {s : State} {v : State → Byte} (h : shapeOf i.mnemonic = .store v)
    (hw : i.wellFormed s.params = true) :
    ∃ tr d, exec i s = .next ((s.ran i tr d).busWrite (operandAddr i s) (v (s.ran i tr d))) := by
  rw [exec_eq_shape, gate_wellFormed hw, h]
  obtain ⟨p, hp, ha⟩ := store_place h
  obtain ⟨tr, d, hr⟩ := address_ran (s := s) hp (by simp [ha])
  rw [ha] at hr
  refine ⟨tr, d, ?_⟩
  rw [← hr]
  simp only [runShape, hp, storeInstr, operandAddr, targetOf, Option.map_some, ha, begun]

/-- What a high-byte AND store does (R284): the accesses before the store are those of the address cycles. -/
theorem exec_unstable {i : Instr} {s : State} {newS : State → Option Byte} {v : State → Byte}
    (h : shapeOf i.mnemonic = .unstable newS v) (hw : i.wellFormed s.params = true) :
    ∃ d, exec i s =
      let s1 := s.ran i (addressTrace i s) d
      let val := v s1 &&& (hiByte (operandBase i s) + 1)
      if crosses i s then
        match s.params.shCross with
        | .refuse => .refused (.unstableOpcode i.opcode (addressTrace i s) (newS s1))
        | .formula => .next ((s1.setS (newS s1)).busWrite (word val (loByte (operandAddr i s))) val)
      else .next ((s1.setS (newS s1)).busWrite (operandAddr i s) val) := by
  rw [exec_eq_shape, gate_wellFormed hw, h]
  obtain ⟨p, hp, ha, -⟩ := unstable_place h
  obtain ⟨tr, d, hr⟩ := address_ran (s := s) hp (by simp [ha])
  rw [ha] at hr
  have htr : addressTrace i s = tr := by
    simp only [addressTrace, targetOf, hp, Option.map_some, ha, hr, State.ran]
  refine ⟨d, ?_⟩
  rw [htr, ← hr]
  simp only [runShape, hp, unstableStore, operandAddr, operandBase, crosses, targetOf, Option.map_some, ha, begun]
  rw [show (address .write p (s.beginInstr i.opcode i.row.cycles)).st.trace = tr from congrArg State.trace hr]
  all_goals rfl

/-- What a read-modify-write instruction in a memory mode does: `f` on the byte read, in a state whose memory may
hold the unmodified byte written back, then the write of the result (R115). -/
theorem exec_rmw {i : Instr} {s : State} {f : Byte → State → Byte × State} (h : shapeOf i.mnemonic = .rmw f)
    (hm : i.row.mode ≠ .acc) (hw : i.wellFormed s.params = true) :
    ∃ tr d m, exec i s = .next
        (let r := f (rmwValue i s) { s.ran i tr d with mem := m }
         r.2.busWrite (operandAddr i s) r.1) ∧
      (m = s.mem ∨ s.isDevice (operandAddr i s) = false ∧ m = s.mem.write (operandAddr i s).toNat (rmwValue i s)) := by
  rw [exec_eq_shape, gate_wellFormed hw, h]
  obtain ⟨-, p, hp, ha⟩ | ⟨hacc, -⟩ := rmw_place h
  · obtain ⟨tr, d, hr⟩ := address_ran (s := s) hp (by simp [ha])
    rw [ha] at hr
    have hv : rmwValue i s = (s.ran i tr d).peek (operandAddr i s) := by
      simp only [rmwValue, operandAddr, targetOf, hp, Option.map_some, ha, hr]
    let w := ((s.ran i tr d).logRead (operandAddr i s) (rmwValue i s)).dummyWrite (operandAddr i s) (rmwValue i s)
    have hww : w = { s.ran i w.trace w.draws with mem := w.mem } := by
      apply State.ext <;> simp [w, State.ran]
    refine ⟨w.trace, w.draws, w.mem, ?_, ?_⟩
    · rw [← hww]
      simp only [runShape, hp, rmwInstr, State.busRead_fst, State.busRead_snd, w, hv]
      rw [show s.beginInstr i.opcode i.row.cycles = begun i s from rfl, hr]
      simp only [operandAddr, targetOf, hp, Option.map_some, ha]
    · simp only [w, State.dummyWrite]
      split
      · simp only [State.busWrite_mem, State.logRead_isDevice, State.logRead_mem]
        rw [show (s.ran i tr d).isDevice = s.isDevice from rfl]
        by_cases hd : s.isDevice (operandAddr i s) = true
        · left; rw [if_pos hd]; rfl
        · right; exact ⟨by simpa using hd, by rw [if_neg hd]; rfl⟩
      · left; rfl
  · exact absurd hacc hm

/-- What a shift in accumulator mode does (R102). -/
theorem exec_acc {i : Instr} {s : State} {f : Byte → State → Byte × State} (h : shapeOf i.mnemonic = .rmw f)
    (hm : i.row.mode = .acc) (hw : i.wellFormed s.params = true) :
    ∃ tr d, exec i s = .next ((f s.a (s.ran i tr d)).2.setA (f s.a (s.ran i tr d)).1) := by
  rw [exec_eq_shape, gate_wellFormed hw, h]
  obtain ⟨hacc, -⟩ | ⟨-, hp⟩ := rmw_place h
  · exact absurd hm hacc
  · obtain ⟨tr, d, hr⟩ := implied_ran (s := s) hp
    refine ⟨tr, d, ?_⟩
    simp only [runShape, hp.1, accInstr]
    rw [show s.beginInstr i.opcode i.row.cycles = begun i s from rfl, hr]
    rfl

/-- What an implied instruction does (R101). -/
theorem exec_implied {i : Instr} {s : State} {f : State → State} (h : shapeOf i.mnemonic = .implied f)
    (hw : i.wellFormed s.params = true) : ∃ tr d, exec i s = .next (f (s.ran i tr d)) := by
  rw [exec_eq_shape, gate_wellFormed hw, h]
  obtain ⟨tr, d, hr⟩ := implied_ran (s := s) (implied_row h)
  refine ⟨tr, d, ?_⟩
  simp only [runShape, impliedInstr]
  exact congrArg (fun u => Host.Outcome.next (f u)) hr

end Sys2Proof.Machine
end

