-- ==== Sys2Proof/Laws/Effects.lean ====
section
/-! SUPPORT. What the effect of each mnemonic leaves alone, one lemma per shape: an effect touches registers and the
flags of its row of R40, and the bus only where it is a stack instruction's. -/

namespace Sys2Proof.Machine

/-- `t` has the bus, PC, counters and platform of `s`, and its flags but for those in `fs`. -/
structure Inert (fs : List Flag) (s t : State) : Prop where
  mem : t.mem = s.mem
  pc : t.pc = s.pc
  cycles : t.cycles = s.cycles
  trace : t.trace = s.trace
  draws : t.draws = s.draws
  halted : t.halted = s.halted
  nmiPending : t.nmiPending = s.nmiPending
  irqLine : t.irqLine = s.irqLine
  devices : t.devices = s.devices
  params : t.params = s.params
  flags : ∀ f, f ∉ fs → t.flag f = s.flag f

theorem read_inert {mn : Mnemonic} {f : Byte → State → State} (h : shapeOf mn = .read f) (m : Byte) (u : State) :
    Inert (flagWriters mn) u (f m u) := by
  cases mn <;> cases h <;> refine ⟨rfl, rfl, rfl, rfl, rfl, rfl, rfl, rfl, rfl, rfl, ?_⟩ <;> intro fl hfl <;>
    cases fl <;> first | rfl | simp [flagWriters] at hfl

theorem rmw_inert {mn : Mnemonic} {f : Byte → State → Byte × State} (h : shapeOf mn = .rmw f) (m : Byte) (u : State) :
    Inert (flagWriters mn) u (f m u).2 := by
  cases mn <;> cases h <;> refine ⟨rfl, rfl, rfl, rfl, rfl, rfl, rfl, rfl, rfl, rfl, ?_⟩ <;> intro fl hfl <;>
    cases fl <;> first | rfl | simp [flagWriters] at hfl

theorem setS_inert (v : Option Byte) (u : State) : Inert [] u (u.setS v) :=
  ⟨rfl, rfl, rfl, rfl, rfl, rfl, rfl, rfl, rfl, rfl, fun fl _ => by cases fl <;> rfl⟩

/-- The stack instructions are the implied ones that use the bus. -/
def usesStack : Mnemonic → Bool
  | .pha | .php | .pla | .plp | .rts | .rti => true
  | _ => false

theorem implied_inert {mn : Mnemonic} {f : State → State} (h : shapeOf mn = .implied f) (hs : usesStack mn = false)
    (u : State) : Inert (flagWriters mn) u (f u) := by
  cases mn <;> cases h <;> first
    | (cases hs; done)
    | (refine ⟨rfl, rfl, rfl, rfl, rfl, rfl, rfl, rfl, rfl, rfl, ?_⟩; intro fl hfl; cases fl <;>
        first | rfl | simp [flagWriters] at hfl)

end Sys2Proof.Machine
end

