-- ==== Sys2Proof/Laws/Flags.lean ====
section
/-! SUPPORT. What the flag computations say as arithmetic on unsigned and signed numbers: the carry and overflow of an
addition and of a subtraction, the compare, the shifts, and the status byte. -/

namespace Sys2Proof.Machine

/-! ### AddCore (R160) -/

theorem sum9_toNat (a m : Byte) (c : Bool) : (sum9 a m c).toNat = a.toNat + m.toNat + c.toNat := by
  have := a.isLt; have := m.isLt
  cases c <;> simp [sum9, bit] <;> omega

/-- The sum and its carry are the sum of the three numbers. -/
theorem addCore_sum (a m : Byte) (c : Bool) (s : State) :
    (s.addCore a m c).a.toNat + 256 * (s.addCore a m c).flagC.toNat = a.toNat + m.toNat + c.toNat := by
  have h := sum9_toNat a m c
  have hb : (sum9 a m c).getLsbD 8 = decide (256 ≤ (sum9 a m c).toNat) := by
    simpa [BitVec.msb_eq_getLsbD_last] using BitVec.msb_eq_decide (sum9 a m c)
  have := a.isLt; have := m.isLt; have : c.toNat ≤ 1 := by cases c <;> decide
  simp only [State.addCore, State.loadA, State.setNZ, BitVec.toNat_setWidth, hb, h]
  by_cases hh : 256 ≤ a.toNat + m.toNat + c.toNat <;> simp [hh] <;> omega

/-- V says that the signed sum does not fit. -/
theorem addCore_overflow (a m : Byte) (c : Bool) (s : State) :
    (s.addCore a m c).flagV = true ↔ a.toInt + m.toInt + c.toNat < -128 ∨ 127 < a.toInt + m.toInt + c.toNat := by
  have hr : ((sum9 a m c).setWidth 8 : Byte).toNat = (a.toNat + m.toNat + c.toNat) % 256 := by
    rw [BitVec.toNat_setWidth, sum9_toNat]
  generalize hq : ((sum9 a m c).setWidth 8 : Byte) = r at hr
  have := a.isLt; have := m.isLt; have := r.isLt; have : c.toNat ≤ 1 := by cases c <;> decide
  simp only [State.addCore, State.loadA, State.setNZ, hq, BitVec.msb_and, BitVec.msb_xor]
  simp only [BitVec.msb_eq_decide, BitVec.toInt_eq_toNat_cond]
  by_cases h1 : 128 ≤ a.toNat <;> by_cases h2 : 128 ≤ m.toNat <;> by_cases h3 : 128 ≤ r.toNat <;>
    simp [h1, h2, h3] <;> omega

/-- A subtraction is an addition of the complement (R162): the result, the borrow and the signed overflow. -/
theorem addCore_complement (a m : Byte) (c : Bool) (s : State) :
    let t := s.addCore a (m ^^^ 0xFF) c
    let borrow : Nat := 1 - c.toNat
    t.a = a - m - BitVec.ofNat 8 borrow ∧ (t.flagC = true ↔ m.toNat + borrow ≤ a.toNat) ∧
      (t.flagV = true ↔ a.toInt - m.toInt - borrow < -128 ∨ 127 < a.toInt - m.toInt - borrow) := by
  have hx : m ^^^ 0xFF = ~~~m := by rw [← BitVec.xor_allOnes]; rfl
  have hn : (~~~m).toNat = 255 - m.toNat := by rw [BitVec.toNat_not]
  have hi : (~~~m).toInt = -1 - m.toInt := by
    rw [BitVec.toInt_eq_toNat_cond, BitVec.toInt_eq_toNat_cond, hn]
    have := m.isLt
    split <;> split <;> omega
  have hs := addCore_sum a (~~~m) c s
  have hv := addCore_overflow a (~~~m) c s
  have := a.isLt; have := m.isLt; have := (s.addCore a (~~~m) c).a.isLt
  simp only [hx]
  refine ⟨?_, ?_, ?_⟩
  · apply BitVec.eq_of_toNat_eq
    cases c <;> simp only [BitVec.toNat_sub, BitVec.toNat_ofNat, Bool.toNat_false, Bool.toNat_true] at * <;> omega
  · cases hc : (s.addCore a (~~~m) c).flagC <;> rw [hc] at hs <;> cases c <;> simp at * <;> omega
  · rw [hv, hi]
    cases c <;> simp <;> omega

/-! ### Compare (R166) -/

/-- C is the unsigned order, Z equality, N bit 7 of the difference. -/
theorem compare_flags (reg m : Byte) (s : State) :
    ((s.compare reg m).flagC = true ↔ m.toNat ≤ reg.toNat) ∧ ((s.compare reg m).flagZ = true ↔ reg = m) ∧
      (s.compare reg m).flagN = (reg - m).getLsbD 7 := by
  simp [State.compare, BitVec.le_def, BitVec.msb_eq_getLsbD_last]

/-! ### Shifts (R190 to R193) -/

theorem shiftAsl_eq (v : Byte) : (shiftAsl v).1 = BitVec.ofNat 8 (2 * v.toNat) := by
  revert v; decide

theorem shiftLsr_eq (v : Byte) : (shiftLsr v).1 = BitVec.ofNat 8 (v.toNat / 2) := by
  revert v; decide

theorem shiftRol_eq (c : Bool) (v : Byte) : (shiftRol c v).1 = BitVec.ofNat 8 (2 * v.toNat + c.toNat) := by
  revert v; cases c <;> decide

theorem shiftRor_eq (c : Bool) (v : Byte) : (shiftRor c v).1 = BitVec.ofNat 8 (v.toNat / 2 + 128 * c.toNat) := by
  revert v; cases c <;> decide

/-! ### The status byte (R26, R27, R28) -/

/-- Each flag stands at its bit; U is 1 and B is as asked. -/
theorem packP_bits (b : Bool) (s : State) :
    (s.packP b).getLsbD 7 = s.flagN ∧ (s.packP b).getLsbD 6 = s.flagV ∧ (s.packP b).getLsbD 5 = true ∧
      (s.packP b).getLsbD 4 = b ∧ (s.packP b).getLsbD 3 = s.flagD ∧ (s.packP b).getLsbD 2 = s.flagI ∧
      (s.packP b).getLsbD 1 = s.flagZ ∧ (s.packP b).getLsbD 0 = s.flagC := by
  simp only [State.packP]
  generalize s.flagN = n, s.flagV = v, s.flagD = d, s.flagI = i, s.flagZ = z, s.flagC = c
  revert b n v d i z c; decide

/-- Pulling the byte that was pushed gives the flags it was made of (R28). -/
theorem unpackP_packP (b : Bool) (s t : State) :
    t.unpackP (s.packP b) =
      { t with flagN := s.flagN, flagV := s.flagV, flagD := s.flagD, flagI := s.flagI, flagZ := s.flagZ,
               flagC := s.flagC } := by
  obtain ⟨h7, h6, -, -, h3, h2, h1, h0⟩ := packP_bits b s
  simp only [State.unpackP, h7, h6, h3, h2, h1, h0]

end Sys2Proof.Machine
end

