-- ==== Sys2Proof/Laws/Memory.lean ====
section
/-! SUPPORT. The laws of plain memory: a read after a write, and that a write keeps the canonical form. -/

namespace Sys2Proof.Machine

/-- A write leaves every other address alone, whatever the list. -/
theorem Memory.read_write_ne {m : Memory} {a b : Nat} {v : Byte} (h : a ≠ b) :
    (Memory.write m a v).read b = m.read b := by
  induction m with
  | nil => simp only [Memory.write]; split <;> simp [Memory.read, h]
  | cons c m ih =>
    obtain ⟨k, w⟩ := c
    simp only [Memory.write]
    split
    · simp [Memory.read, ih]
    · split
      · next hk => subst hk; split <;> simp [Memory.read, h]
      · split <;> simp [Memory.read, h]

theorem Memory.wfFrom_mono {m : Memory} {lo lo' : Nat} (hl : lo' ≤ lo) (h : Memory.wfFrom lo m = true) :
    Memory.wfFrom lo' m = true := by
  cases m with
  | nil => rfl
  | cons c m =>
    simp only [Memory.wfFrom, Bool.and_eq_true, decide_eq_true_eq] at h ⊢
    exact ⟨⟨⟨by omega, h.1.1.2⟩, h.1.2⟩, h.2⟩

/-- Below a canonical memory's first address every byte is blank. -/
theorem Memory.read_below {m : Memory} {lo a : Nat} (h : Memory.wfFrom lo m = true) (ha : a < lo) :
    m.read a = Config.blankByte := by
  induction m generalizing lo with
  | nil => rfl
  | cons c m ih =>
    simp only [Memory.wfFrom, Bool.and_eq_true, decide_eq_true_eq] at h
    have hne : c.1 ≠ a := by omega
    simp only [Memory.read, hne, if_false]
    exact ih h.2 (by omega)

/-- A read of the address just written gives the byte written. -/
theorem Memory.read_write_from {m : Memory} {lo a : Nat} {v : Byte} (h : Memory.wfFrom lo m = true) :
    (Memory.write m a v).read a = v := by
  induction m generalizing lo with
  | nil => simp only [Memory.write]; split <;> simp_all [Memory.read]
  | cons c m ih =>
    obtain ⟨k, w⟩ := c
    simp only [Memory.wfFrom, Bool.and_eq_true, decide_eq_true_eq] at h
    simp only [Memory.write]
    split
    · have hne : k ≠ a := by omega
      simp [Memory.read, hne, ih h.2]
    · split
      · next hk =>
        subst hk
        split
        · next hv => rw [hv]; exact Memory.read_below h.2 (by omega)
        · simp [Memory.read]
      · next hk =>
        split
        · next hv =>
          simp only [Memory.read, hk, if_false]
          rw [hv]; exact Memory.read_below h.2 (by omega)
        · simp [Memory.read]

theorem Memory.read_write_eq {m : Memory} {a : Nat} {v : Byte} (h : m.wf = true) :
    (Memory.write m a v).read a = v := Memory.read_write_from h

theorem Memory.wfFrom_write {m : Memory} {lo a : Nat} {v : Byte} (h : Memory.wfFrom lo m = true) (hl : lo ≤ a)
    (ha : a < 65536) : Memory.wfFrom lo (Memory.write m a v) = true := by
  induction m generalizing lo with
  | nil => simp only [Memory.write]; split <;> simp_all [Memory.wfFrom]
  | cons c m ih =>
    obtain ⟨k, w⟩ := c
    have h0 := h
    simp only [Memory.wfFrom, Bool.and_eq_true, decide_eq_true_eq] at h
    simp only [Memory.write]
    split
    · simp only [Memory.wfFrom, Bool.and_eq_true, decide_eq_true_eq]
      exact ⟨h.1, ih h.2 (by omega)⟩
    · split
      · next hk =>
        subst hk
        split
        · exact Memory.wfFrom_mono (by omega) h.2
        · next hv => simp [Memory.wfFrom, h.1.1.1, h.1.1.2, h.2, hv]
      · split
        · exact h0
        · next hv =>
          have hlt : a + 1 ≤ k := by omega
          simp [Memory.wfFrom, hl, ha, hv, hlt, h.1.1.2, h.2, h.1.2] at h ⊢

/-- A write inside the address space keeps the canonical form. -/
theorem Memory.wf_write {m : Memory} {a : Nat} {v : Byte} (h : m.wf = true) (ha : a < 65536) :
    (Memory.write m a v).wf = true := Memory.wfFrom_write h (by omega) ha

/-- Two canonical memories that read alike are equal. -/
theorem Memory.ext_from {m m' : Memory} {lo : Nat} (h : Memory.wfFrom lo m = true) (h' : Memory.wfFrom lo m' = true)
    (hr : ∀ a, m.read a = m'.read a) : m = m' := by
  induction m generalizing m' lo with
  | nil =>
    cases m' with
    | nil => rfl
    | cons c m' =>
      simp only [Memory.wfFrom, Bool.and_eq_true, decide_eq_true_eq] at h'
      have := hr c.1
      simp [Memory.read] at this
      simp [← this] at h'
  | cons c m ih =>
    obtain ⟨k, v⟩ := c
    cases m' with
    | nil =>
      simp only [Memory.wfFrom, Bool.and_eq_true, decide_eq_true_eq] at h
      have := hr k
      simp [Memory.read] at this
      simp [this] at h
    | cons c' m' =>
      obtain ⟨k', v'⟩ := c'
      simp only [Memory.wfFrom, Bool.and_eq_true, decide_eq_true_eq] at h h'
      have hk : k = k' := by
        rcases Nat.lt_trichotomy k k' with hlt | heq | hgt
        · have h1 := hr k
          have h2 : Memory.read ((k', v') :: m') k = Config.blankByte := by
            have hne : k' ≠ k := by omega
            simp only [Memory.read, hne, if_false]; exact Memory.read_below h'.2 (by omega)
          rw [h2] at h1; simp [Memory.read] at h1; simp [h1] at h
        · exact heq
        · have h1 := hr k'
          have h2 : Memory.read ((k, v) :: m) k' = Config.blankByte := by
            have hne : k ≠ k' := by omega
            simp only [Memory.read, hne, if_false]; exact Memory.read_below h.2 (by omega)
          rw [h2] at h1; simp [Memory.read] at h1; simp [← h1] at h'
      subst hk
      have hv : v = v' := by simpa [Memory.read] using hr k
      subst hv
      congr 1
      refine ih h.2 h'.2 fun a => ?_
      by_cases hak : k = a
      · subst hak
        rw [Memory.read_below h.2 (by omega), Memory.read_below h'.2 (by omega)]
      · simpa [Memory.read, hak] using hr a

theorem Memory.ext {m m' : Memory} (h : m.wf = true) (h' : m'.wf = true) (hr : ∀ a, m.read a = m'.read a) :
    m = m' := Memory.ext_from h h' hr

/-- A second write to an address takes the place of the first. -/
theorem Memory.write_write {m : Memory} {a : Nat} {v w : Byte} (h : m.wf = true) (ha : a < 65536) :
    (Memory.write m a v).write a w = Memory.write m a w := by
  refine Memory.ext (Memory.wf_write (Memory.wf_write h ha) ha) (Memory.wf_write h ha) fun b => ?_
  by_cases hab : a = b
  · subst hab
    rw [Memory.read_write_eq (Memory.wf_write h ha), Memory.read_write_eq h]
  · rw [Memory.read_write_ne hab, Memory.read_write_ne hab, Memory.read_write_ne hab]

/-- Writing the byte that stands there changes nothing. -/
theorem Memory.write_read {m : Memory} {a : Nat} (h : m.wf = true) (ha : a < 65536) :
    Memory.write m a (m.read a) = m := by
  refine Memory.ext (Memory.wf_write h ha) h fun b => ?_
  by_cases hab : a = b
  · subst hab; rw [Memory.read_write_eq h]
  · rw [Memory.read_write_ne hab]

end Sys2Proof.Machine
end

