-- ==== Sys2Proof/Laws/Ops.lean ====
section
/-! SUPPORT. What the stack, the bus writes and the exception entry can do: the canonical form of memory stays, a byte
pushed is the byte read back, and an entry through a vector is what `Enters` says. -/

namespace Sys2Proof.Machine

/-! ### Byte pairs (R7) -/

theorem word_inj {h l h' l' : Byte} : word h l = word h' l' ↔ h = h' ∧ l = l' := by
  constructor
  · intro e
    have e := congrArg BitVec.toNat e
    simp only [word, BitVec.toNat_append] at e
    have a := l.isLt; have b := l'.isLt
    rw [← Nat.shiftLeft_add_eq_or_of_lt a, ← Nat.shiftLeft_add_eq_or_of_lt b] at e
    simp only [Nat.shiftLeft_eq] at e
    constructor <;> apply BitVec.eq_of_toNat_eq <;> omega
  · rintro ⟨rfl, rfl⟩; rfl

theorem word_hiByte_loByte (w : Addr) : word (hiByte w) (loByte w) = w := by
  apply BitVec.eq_of_toNat_eq
  simp only [word, hiByte, loByte, BitVec.toNat_append, BitVec.extractLsb'_toNat]
  have := w.isLt
  rw [← Nat.shiftLeft_add_eq_or_of_lt (by omega)]
  simp only [Nat.shiftLeft_eq, Nat.shiftRight_eq_div_pow]
  omega

/-- Two stack addresses differ where their low bytes differ. -/
theorem stack_ne {a b : Byte} (h : a ≠ b) : (word 0x01 a).toNat ≠ (word 0x01 b).toNat := fun e =>
  h (word_inj.mp (BitVec.eq_of_toNat_eq e)).2

/-- Every stack address is below the vectors (R57, R56). -/
theorem stack_lt (v : Byte) : (word 0x01 v).toNat < 0x200 := by revert v; decide

/-! ### The canonical form of memory -/

theorem busWrite_wf {s : State} (a : Addr) (v : Byte) (h : s.mem.wf = true) : (s.busWrite a v).mem.wf = true := by
  rw [State.busWrite_mem]; split
  · exact h
  · exact Memory.wf_write h a.isLt

theorem dummyWrite_wf {s : State} (a : Addr) (v : Byte) (h : s.mem.wf = true) : (s.dummyWrite a v).mem.wf = true := by
  unfold State.dummyWrite; split
  · exact busWrite_wf a v h
  · exact h

theorem push_wf {s : State} (v : Byte) (h : s.mem.wf = true) : (s.push v).mem.wf = true := busWrite_wf _ v h

theorem pushPc_wf {s : State} (h : s.mem.wf = true) : s.pushPc.mem.wf = true := push_wf _ (push_wf _ h)

theorem enterHandler_mem (b : Bool) (vec : Addr) (s : State) :
    (s.enterHandler b vec).mem = (s.pushPc.push (s.packP b)).mem := by
  simp [State.enterHandler, State.packP]

theorem enterHandler_wf {s : State} (b : Bool) (vec : Addr) (h : s.mem.wf = true) :
    (s.enterHandler b vec).mem.wf = true := by
  rw [enterHandler_mem]; exact push_wf _ (pushPc_wf h)

theorem reset_wf : State.reset.mem.wf = true := rfl

/-! ### Pushes (R58) -/

/-- The byte pushed stands at the old stack address. -/
theorem push_read {s : State} (v : Byte) (h : s.mem.wf = true) (hd : s.isDevice (word 0x01 s.sp) = false) :
    (s.push v).mem.read (word 0x01 s.sp).toNat = v := by
  rw [State.push_mem, State.stackAddr, hd]; exact Memory.read_write_eq h

/-- Every other byte stays. -/
theorem push_read_ne {s : State} (v : Byte) {a : Nat} (ha : (word 0x01 s.sp).toNat ≠ a) :
    (s.push v).mem.read a = s.mem.read a := by
  rw [State.push_mem, State.stackAddr]; split
  · rfl
  · exact Memory.read_write_ne ha

theorem pushPc_stores (s : State) :
    KeepsMemory [word 0x01 s.sp, word 0x01 (s.sp - 1)] s s.pushPc ∧ Stores (word 0x01 s.sp) (hiByte s.pc) s s.pushPc ∧
      Stores (word 0x01 (s.sp - 1)) (loByte s.pc) s s.pushPc := by
  refine ⟨fun a ha => ?_, fun hd hw => ?_, fun hd hw => ?_⟩
  · rw [State.pushPc, push_read_ne, push_read_ne]
    · exact ha _ (by simp)
    · exact ha _ (by simp)
  · rw [State.pushPc, push_read_ne, push_read _ hw hd]
    exact stack_ne (by simp)
  · simpa [State.pushPc] using
      push_read (s := s.push (hiByte s.pc)) (loByte s.pc) (push_wf _ hw) (by simpa using hd)

/-! ### Taking an exception (R214, R305) -/

theorem sub_sub_two (v : Byte) : v - 1#8 - 1#8 = v - 2#8 := by bv_omega
theorem sub_sub_three (v : Byte) : v - 1#8 - 1#8 - 1#8 = v - 3#8 := by bv_omega
theorem add_add_two (v : Byte) : v + 1#8 + 1#8 = v + 2#8 := by bv_omega
theorem add_add_three (v : Byte) : v + 1#8 + 1#8 + 1#8 = v + 3#8 := by bv_omega

/-- The shared entry does all that `Enters` says, through any vector above the stack page. -/
theorem enterHandler_enters (b : Bool) {vec : Addr} (hv : 0x200 ≤ vec.toNat ∧ vec.toNat < 0xFFFF) (s : State) :
    Enters b vec s.pc s (s.enterHandler b vec) := by
  have hp := pushPc_stores s
  have keep : ∀ a : Nat, (∀ e ∈ [word 0x01 s.sp, word 0x01 (s.sp - 1), word 0x01 (s.sp - 2)], e.toNat ≠ a) →
      (s.pushPc.push (s.packP b)).mem.read a = s.mem.read a := by
    intro a ha
    rw [push_read_ne]
    · exact hp.1 a (fun e he => ha e (by simp at he ⊢; tauto))
    · simpa [sub_sub_two] using ha (word 0x01 (s.sp - 2)) (by simp)
  have above : ∀ a : Nat, 0x200 ≤ a → (s.pushPc.push (s.packP b)).mem.read a = s.mem.read a := by
    intro a ha
    refine keep a fun e he => ?_
    have h0 := stack_lt s.sp; have h1 := stack_lt (s.sp - 1#8); have h2 := stack_lt (s.sp - 2#8)
    simp at he h0 h1 h2
    rcases he with rfl | rfl | rfl <;> omega
  refine ⟨⟨?_, ?_, by simp, by simp, by simp, by simp, by simp⟩, ?_, by simp, ?_, ?_, ?_, ?_, ?_⟩
  · intro r hr; cases r <;> simp [State.reg] at *
  · intro r hr; cases r <;> simp [State.flag] at *
  · simp [sub_sub_three]
  · intro a ha; rw [enterHandler_mem]; exact keep a ha
  · intro hd hw; rw [enterHandler_mem, push_read_ne]
    · exact hp.2.1 hd hw
    · simp only [State.pushPc_sp]; exact stack_ne (by bv_omega)
  · intro hd hw; rw [enterHandler_mem, push_read_ne]
    · exact hp.2.2 hd hw
    · simp only [State.pushPc_sp]; exact stack_ne (by bv_omega)
  · intro hd hw; rw [enterHandler_mem]
    simpa [sub_sub_two] using
      push_read (s := s.pushPc) (s.packP b) (pushPc_wf hw) (by simpa [sub_sub_two] using hd)
  · simp only [State.enterHandler, State.jumpVector, State.busRead_fst, State.busRead_snd]
    have e : s.pushPc.packP b = s.packP b := by simp [State.packP]
    refine ⟨_, _, rfl, fun hd => ?_, fun hd => ?_⟩
    · rw [State.peek_plain (by simpa using hd), e]
      exact above _ hv.1
    · rw [State.peek_plain (by simpa using hd), State.logRead_mem, e]
      exact above _ (by bv_omega)

/-- An entry made from a state that has the registers, flags, platform and memory of `s` is an entry from `s`. -/
theorem Enters.of_keeps {b : Bool} {vec ret : Addr} {s s' t : State} (h : Enters b vec ret s' t)
    (hk : Keeps [] [] s s') (hm : s'.mem = s.mem) : Enters b vec ret s t := by
  have hd : s'.isDevice = s.isDevice := by funext a; simp [State.isDevice, hk.devices]
  have hsp : s'.sp = s.sp := hk.regs .sp (by simp)
  have hP : s'.packP b = s.packP b := by
    have h1 := hk.flags .n (by simp); have h2 := hk.flags .v (by simp); have h3 := hk.flags .d (by simp)
    have h4 := hk.flags .i (by simp); have h5 := hk.flags .z (by simp); have h6 := hk.flags .c (by simp)
    simp only [State.flag] at *
    simp only [State.packP, *]
  obtain ⟨k, h1, h2, h3, h4, h5, h6, h7⟩ := h
  simp only [hsp, hd, hm, hP, KeepsMemory, Stores, Holds] at *
  exact ⟨⟨fun r hr => (k.regs r hr).trans (hk.regs r (by simp)), fun r hr => (k.flags r hr).trans (hk.flags r (by simp)),
    k.nmiPending.trans hk.nmiPending, k.halted.trans hk.halted, k.irqLine.trans hk.irqLine,
    k.devices.trans hk.devices, k.params.trans hk.params⟩, h1, h2, h3, h4, h5, h6, h7⟩

end Sys2Proof.Machine
end

