-- ==== Sys2Proof/Laws/PerInstr.lean ====
section
/-! SUPPORT. The per-instruction family RoundTrip: each instruction's bytes decode back to it, whatever follows
them, and have the length and opcode of its row of the table. -/

namespace Sys2Proof.Laws.RoundTrip

/-- Decoding the encoded instruction gives it back with the bytes after it, and its length is its row's (R82). -/
def Statement (i : Instr) : Prop :=
  (∀ rest, decode (encode i ++ rest) = .ok (i, rest)) ∧ (encode i).length = i.row.bytes

end Sys2Proof.Laws.RoundTrip

theorem Sys2Proof.Laws.RoundTrip.brk (pad : Sys2Proof.Byte) :
    Sys2Proof.Laws.RoundTrip.Statement (.brk pad) := ⟨fun _ => rfl, rfl⟩
theorem Sys2Proof.Laws.RoundTrip.oraIndX (n : Sys2Proof.Byte) :
    Sys2Proof.Laws.RoundTrip.Statement (.oraIndX n) := ⟨fun _ => rfl, rfl⟩
theorem Sys2Proof.Laws.RoundTrip.jam02 :
    Sys2Proof.Laws.RoundTrip.Statement (.jam02) := ⟨fun _ => rfl, rfl⟩
theorem Sys2Proof.Laws.RoundTrip.sloIndX (n : Sys2Proof.Byte) :
    Sys2Proof.Laws.RoundTrip.Statement (.sloIndX n) := ⟨fun _ => rfl, rfl⟩
theorem Sys2Proof.Laws.RoundTrip.nop04Zp (n : Sys2Proof.Byte) :
    Sys2Proof.Laws.RoundTrip.Statement (.nop04Zp n) := ⟨fun _ => rfl, rfl⟩
theorem Sys2Proof.Laws.RoundTrip.oraZp (n : Sys2Proof.Byte) :
    Sys2Proof.Laws.RoundTrip.Statement (.oraZp n) := ⟨fun _ => rfl, rfl⟩
theorem Sys2Proof.Laws.RoundTrip.aslZp (n : Sys2Proof.Byte) :
    Sys2Proof.Laws.RoundTrip.Statement (.aslZp n) := ⟨fun _ => rfl, rfl⟩
theorem Sys2Proof.Laws.RoundTrip.sloZp (n : Sys2Proof.Byte) :
    Sys2Proof.Laws.RoundTrip.Statement (.sloZp n) := ⟨fun _ => rfl, rfl⟩
theorem Sys2Proof.Laws.RoundTrip.php :
    Sys2Proof.Laws.RoundTrip.Statement (.php) := ⟨fun _ => rfl, rfl⟩
theorem Sys2Proof.Laws.RoundTrip.oraImm (n : Sys2Proof.Byte) :
    Sys2Proof.Laws.RoundTrip.Statement (.oraImm n) := ⟨fun _ => rfl, rfl⟩
theorem Sys2Proof.Laws.RoundTrip.aslAcc :
    Sys2Proof.Laws.RoundTrip.Statement (.aslAcc) := ⟨fun _ => rfl, rfl⟩
theorem Sys2Proof.Laws.RoundTrip.anc0BImm (n : Sys2Proof.Byte) :
    Sys2Proof.Laws.RoundTrip.Statement (.anc0BImm n) := ⟨fun _ => rfl, rfl⟩
theorem Sys2Proof.Laws.RoundTrip.nop0CAbs (lo hi : Sys2Proof.Byte) :
    Sys2Proof.Laws.RoundTrip.Statement (.nop0CAbs lo hi) := ⟨fun _ => rfl, rfl⟩
theorem Sys2Proof.Laws.RoundTrip.oraAbs (lo hi : Sys2Proof.Byte) :
    Sys2Proof.Laws.RoundTrip.Statement (.oraAbs lo hi) := ⟨fun _ => rfl, rfl⟩
theorem Sys2Proof.Laws.RoundTrip.aslAbs (lo hi : Sys2Proof.Byte) :
    Sys2Proof.Laws.RoundTrip.Statement (.aslAbs lo hi) := ⟨fun _ => rfl, rfl⟩
theorem Sys2Proof.Laws.RoundTrip.sloAbs (lo hi : Sys2Proof.Byte) :
    Sys2Proof.Laws.RoundTrip.Statement (.sloAbs lo hi) := ⟨fun _ => rfl, rfl⟩
theorem Sys2Proof.Laws.RoundTrip.bpl (n : Sys2Proof.Byte) :
    Sys2Proof.Laws.RoundTrip.Statement (.bpl n) := ⟨fun _ => rfl, rfl⟩
theorem Sys2Proof.Laws.RoundTrip.oraIndY (n : Sys2Proof.Byte) :
    Sys2Proof.Laws.RoundTrip.Statement (.oraIndY n) := ⟨fun _ => rfl, rfl⟩
theorem Sys2Proof.Laws.RoundTrip.jam12 :
    Sys2Proof.Laws.RoundTrip.Statement (.jam12) := ⟨fun _ => rfl, rfl⟩
theorem Sys2Proof.Laws.RoundTrip.sloIndY (n : Sys2Proof.Byte) :
    Sys2Proof.Laws.RoundTrip.Statement (.sloIndY n) := ⟨fun _ => rfl, rfl⟩
theorem Sys2Proof.Laws.RoundTrip.nop14ZpX (n : Sys2Proof.Byte) :
    Sys2Proof.Laws.RoundTrip.Statement (.nop14ZpX n) := ⟨fun _ => rfl, rfl⟩
theorem Sys2Proof.Laws.RoundTrip.oraZpX (n : Sys2Proof.Byte) :
    Sys2Proof.Laws.RoundTrip.Statement (.oraZpX n) := ⟨fun _ => rfl, rfl⟩
theorem Sys2Proof.Laws.RoundTrip.aslZpX (n : Sys2Proof.Byte) :
    Sys2Proof.Laws.RoundTrip.Statement (.aslZpX n) := ⟨fun _ => rfl, rfl⟩
theorem Sys2Proof.Laws.RoundTrip.sloZpX (n : Sys2Proof.Byte) :
    Sys2Proof.Laws.RoundTrip.Statement (.sloZpX n) := ⟨fun _ => rfl, rfl⟩
theorem Sys2Proof.Laws.RoundTrip.clc :
    Sys2Proof.Laws.RoundTrip.Statement (.clc) := ⟨fun _ => rfl, rfl⟩
theorem Sys2Proof.Laws.RoundTrip.oraAbsY (lo hi : Sys2Proof.Byte) :
    Sys2Proof.Laws.RoundTrip.Statement (.oraAbsY lo hi) := ⟨fun _ => rfl, rfl⟩
theorem Sys2Proof.Laws.RoundTrip.nop1A :
    Sys2Proof.Laws.RoundTrip.Statement (.nop1A) := ⟨fun _ => rfl, rfl⟩
theorem Sys2Proof.Laws.RoundTrip.sloAbsY (lo hi : Sys2Proof.Byte) :
    Sys2Proof.Laws.RoundTrip.Statement (.sloAbsY lo hi) := ⟨fun _ => rfl, rfl⟩
theorem Sys2Proof.Laws.RoundTrip.nop1CAbsX (lo hi : Sys2Proof.Byte) :
    Sys2Proof.Laws.RoundTrip.Statement (.nop1CAbsX lo hi) := ⟨fun _ => rfl, rfl⟩
theorem Sys2Proof.Laws.RoundTrip.oraAbsX (lo hi : Sys2Proof.Byte) :
    Sys2Proof.Laws.RoundTrip.Statement (.oraAbsX lo hi) := ⟨fun _ => rfl, rfl⟩
theorem Sys2Proof.Laws.RoundTrip.aslAbsX (lo hi : Sys2Proof.Byte) :
    Sys2Proof.Laws.RoundTrip.Statement (.aslAbsX lo hi) := ⟨fun _ => rfl, rfl⟩
theorem Sys2Proof.Laws.RoundTrip.sloAbsX (lo hi : Sys2Proof.Byte) :
    Sys2Proof.Laws.RoundTrip.Statement (.sloAbsX lo hi) := ⟨fun _ => rfl, rfl⟩
theorem Sys2Proof.Laws.RoundTrip.jsrAbs (lo hi : Sys2Proof.Byte) :
    Sys2Proof.Laws.RoundTrip.Statement (.jsrAbs lo hi) := ⟨fun _ => rfl, rfl⟩
theorem Sys2Proof.Laws.RoundTrip.andIndX (n : Sys2Proof.Byte) :
    Sys2Proof.Laws.RoundTrip.Statement (.andIndX n) := ⟨fun _ => rfl, rfl⟩
theorem Sys2Proof.Laws.RoundTrip.jam22 :
    Sys2Proof.Laws.RoundTrip.Statement (.jam22) := ⟨fun _ => rfl, rfl⟩
theorem Sys2Proof.Laws.RoundTrip.rlaIndX (n : Sys2Proof.Byte) :
    Sys2Proof.Laws.RoundTrip.Statement (.rlaIndX n) := ⟨fun _ => rfl, rfl⟩
theorem Sys2Proof.Laws.RoundTrip.bitZp (n : Sys2Proof.Byte) :
    Sys2Proof.Laws.RoundTrip.Statement (.bitZp n) := ⟨fun _ => rfl, rfl⟩
theorem Sys2Proof.Laws.RoundTrip.andZp (n : Sys2Proof.Byte) :
    Sys2Proof.Laws.RoundTrip.Statement (.andZp n) := ⟨fun _ => rfl, rfl⟩
theorem Sys2Proof.Laws.RoundTrip.rolZp (n : Sys2Proof.Byte) :
    Sys2Proof.Laws.RoundTrip.Statement (.rolZp n) := ⟨fun _ => rfl, rfl⟩
theorem Sys2Proof.Laws.RoundTrip.rlaZp (n : Sys2Proof.Byte) :
    Sys2Proof.Laws.RoundTrip.Statement (.rlaZp n) := ⟨fun _ => rfl, rfl⟩
theorem Sys2Proof.Laws.RoundTrip.plp :
    Sys2Proof.Laws.RoundTrip.Statement (.plp) := ⟨fun _ => rfl, rfl⟩
theorem Sys2Proof.Laws.RoundTrip.andImm (n : Sys2Proof.Byte) :
    Sys2Proof.Laws.RoundTrip.Statement (.andImm n) := ⟨fun _ => rfl, rfl⟩
theorem Sys2Proof.Laws.RoundTrip.rolAcc :
    Sys2Proof.Laws.RoundTrip.Statement (.rolAcc) := ⟨fun _ => rfl, rfl⟩
theorem Sys2Proof.Laws.RoundTrip.anc2BImm (n : Sys2Proof.Byte) :
    Sys2Proof.Laws.RoundTrip.Statement (.anc2BImm n) := ⟨fun _ => rfl, rfl⟩
theorem Sys2Proof.Laws.RoundTrip.bitAbs (lo hi : Sys2Proof.Byte) :
    Sys2Proof.Laws.RoundTrip.Statement (.bitAbs lo hi) := ⟨fun _ => rfl, rfl⟩
theorem Sys2Proof.Laws.RoundTrip.andAbs (lo hi : Sys2Proof.Byte) :
    Sys2Proof.Laws.RoundTrip.Statement (.andAbs lo hi) := ⟨fun _ => rfl, rfl⟩
theorem Sys2Proof.Laws.RoundTrip.rolAbs (lo hi : Sys2Proof.Byte) :
    Sys2Proof.Laws.RoundTrip.Statement (.rolAbs lo hi) := ⟨fun _ => rfl, rfl⟩
theorem Sys2Proof.Laws.RoundTrip.rlaAbs (lo hi : Sys2Proof.Byte) :
    Sys2Proof.Laws.RoundTrip.Statement (.rlaAbs lo hi) := ⟨fun _ => rfl, rfl⟩
theorem Sys2Proof.Laws.RoundTrip.bmi (n : Sys2Proof.Byte) :
    Sys2Proof.Laws.RoundTrip.Statement (.bmi n) := ⟨fun _ => rfl, rfl⟩
theorem Sys2Proof.Laws.RoundTrip.andIndY (n : Sys2Proof.Byte) :
    Sys2Proof.Laws.RoundTrip.Statement (.andIndY n) := ⟨fun _ => rfl, rfl⟩
theorem Sys2Proof.Laws.RoundTrip.jam32 :
    Sys2Proof.Laws.RoundTrip.Statement (.jam32) := ⟨fun _ => rfl, rfl⟩
theorem Sys2Proof.Laws.RoundTrip.rlaIndY (n : Sys2Proof.Byte) :
    Sys2Proof.Laws.RoundTrip.Statement (.rlaIndY n) := ⟨fun _ => rfl, rfl⟩
theorem Sys2Proof.Laws.RoundTrip.nop34ZpX (n : Sys2Proof.Byte) :
    Sys2Proof.Laws.RoundTrip.Statement (.nop34ZpX n) := ⟨fun _ => rfl, rfl⟩
theorem Sys2Proof.Laws.RoundTrip.andZpX (n : Sys2Proof.Byte) :
    Sys2Proof.Laws.RoundTrip.Statement (.andZpX n) := ⟨fun _ => rfl, rfl⟩
theorem Sys2Proof.Laws.RoundTrip.rolZpX (n : Sys2Proof.Byte) :
    Sys2Proof.Laws.RoundTrip.Statement (.rolZpX n) := ⟨fun _ => rfl, rfl⟩
theorem Sys2Proof.Laws.RoundTrip.rlaZpX (n : Sys2Proof.Byte) :
    Sys2Proof.Laws.RoundTrip.Statement (.rlaZpX n) := ⟨fun _ => rfl, rfl⟩
theorem Sys2Proof.Laws.RoundTrip.sec :
    Sys2Proof.Laws.RoundTrip.Statement (.sec) := ⟨fun _ => rfl, rfl⟩
theorem Sys2Proof.Laws.RoundTrip.andAbsY (lo hi : Sys2Proof.Byte) :
    Sys2Proof.Laws.RoundTrip.Statement (.andAbsY lo hi) := ⟨fun _ => rfl, rfl⟩
theorem Sys2Proof.Laws.RoundTrip.nop3A :
    Sys2Proof.Laws.RoundTrip.Statement (.nop3A) := ⟨fun _ => rfl, rfl⟩
theorem Sys2Proof.Laws.RoundTrip.rlaAbsY (lo hi : Sys2Proof.Byte) :
    Sys2Proof.Laws.RoundTrip.Statement (.rlaAbsY lo hi) := ⟨fun _ => rfl, rfl⟩
theorem Sys2Proof.Laws.RoundTrip.nop3CAbsX (lo hi : Sys2Proof.Byte) :
    Sys2Proof.Laws.RoundTrip.Statement (.nop3CAbsX lo hi) := ⟨fun _ => rfl, rfl⟩
theorem Sys2Proof.Laws.RoundTrip.andAbsX (lo hi : Sys2Proof.Byte) :
    Sys2Proof.Laws.RoundTrip.Statement (.andAbsX lo hi) := ⟨fun _ => rfl, rfl⟩
theorem Sys2Proof.Laws.RoundTrip.rolAbsX (lo hi : Sys2Proof.Byte) :
    Sys2Proof.Laws.RoundTrip.Statement (.rolAbsX lo hi) := ⟨fun _ => rfl, rfl⟩
theorem Sys2Proof.Laws.RoundTrip.rlaAbsX (lo hi : Sys2Proof.Byte) :
    Sys2Proof.Laws.RoundTrip.Statement (.rlaAbsX lo hi) := ⟨fun _ => rfl, rfl⟩
theorem Sys2Proof.Laws.RoundTrip.rti :
    Sys2Proof.Laws.RoundTrip.Statement (.rti) := ⟨fun _ => rfl, rfl⟩
theorem Sys2Proof.Laws.RoundTrip.eorIndX (n : Sys2Proof.Byte) :
    Sys2Proof.Laws.RoundTrip.Statement (.eorIndX n) := ⟨fun _ => rfl, rfl⟩
theorem Sys2Proof.Laws.RoundTrip.jam42 :
    Sys2Proof.Laws.RoundTrip.Statement (.jam42) := ⟨fun _ => rfl, rfl⟩
theorem Sys2Proof.Laws.RoundTrip.sreIndX (n : Sys2Proof.Byte) :
    Sys2Proof.Laws.RoundTrip.Statement (.sreIndX n) := ⟨fun _ => rfl, rfl⟩
theorem Sys2Proof.Laws.RoundTrip.nop44Zp (n : Sys2Proof.Byte) :
    Sys2Proof.Laws.RoundTrip.Statement (.nop44Zp n) := ⟨fun _ => rfl, rfl⟩
theorem Sys2Proof.Laws.RoundTrip.eorZp (n : Sys2Proof.Byte) :
    Sys2Proof.Laws.RoundTrip.Statement (.eorZp n) := ⟨fun _ => rfl, rfl⟩
theorem Sys2Proof.Laws.RoundTrip.lsrZp (n : Sys2Proof.Byte) :
    Sys2Proof.Laws.RoundTrip.Statement (.lsrZp n) := ⟨fun _ => rfl, rfl⟩
theorem Sys2Proof.Laws.RoundTrip.sreZp (n : Sys2Proof.Byte) :
    Sys2Proof.Laws.RoundTrip.Statement (.sreZp n) := ⟨fun _ => rfl, rfl⟩
theorem Sys2Proof.Laws.RoundTrip.pha :
    Sys2Proof.Laws.RoundTrip.Statement (.pha) := ⟨fun _ => rfl, rfl⟩
theorem Sys2Proof.Laws.RoundTrip.eorImm (n : Sys2Proof.Byte) :
    Sys2Proof.Laws.RoundTrip.Statement (.eorImm n) := ⟨fun _ => rfl, rfl⟩
theorem Sys2Proof.Laws.RoundTrip.lsrAcc :
    Sys2Proof.Laws.RoundTrip.Statement (.lsrAcc) := ⟨fun _ => rfl, rfl⟩
theorem Sys2Proof.Laws.RoundTrip.alrImm (n : Sys2Proof.Byte) :
    Sys2Proof.Laws.RoundTrip.Statement (.alrImm n) := ⟨fun _ => rfl, rfl⟩
theorem Sys2Proof.Laws.RoundTrip.jmpAbs (lo hi : Sys2Proof.Byte) :
    Sys2Proof.Laws.RoundTrip.Statement (.jmpAbs lo hi) := ⟨fun _ => rfl, rfl⟩
theorem Sys2Proof.Laws.RoundTrip.eorAbs (lo hi : Sys2Proof.Byte) :
    Sys2Proof.Laws.RoundTrip.Statement (.eorAbs lo hi) := ⟨fun _ => rfl, rfl⟩
theorem Sys2Proof.Laws.RoundTrip.lsrAbs (lo hi : Sys2Proof.Byte) :
    Sys2Proof.Laws.RoundTrip.Statement (.lsrAbs lo hi) := ⟨fun _ => rfl, rfl⟩
theorem Sys2Proof.Laws.RoundTrip.sreAbs (lo hi : Sys2Proof.Byte) :
    Sys2Proof.Laws.RoundTrip.Statement (.sreAbs lo hi) := ⟨fun _ => rfl, rfl⟩
theorem Sys2Proof.Laws.RoundTrip.bvc (n : Sys2Proof.Byte) :
    Sys2Proof.Laws.RoundTrip.Statement (.bvc n) := ⟨fun _ => rfl, rfl⟩
theorem Sys2Proof.Laws.RoundTrip.eorIndY (n : Sys2Proof.Byte) :
    Sys2Proof.Laws.RoundTrip.Statement (.eorIndY n) := ⟨fun _ => rfl, rfl⟩
theorem Sys2Proof.Laws.RoundTrip.jam52 :
    Sys2Proof.Laws.RoundTrip.Statement (.jam52) := ⟨fun _ => rfl, rfl⟩
theorem Sys2Proof.Laws.RoundTrip.sreIndY (n : Sys2Proof.Byte) :
    Sys2Proof.Laws.RoundTrip.Statement (.sreIndY n) := ⟨fun _ => rfl, rfl⟩
theorem Sys2Proof.Laws.RoundTrip.nop54ZpX (n : Sys2Proof.Byte) :
    Sys2Proof.Laws.RoundTrip.Statement (.nop54ZpX n) := ⟨fun _ => rfl, rfl⟩
theorem Sys2Proof.Laws.RoundTrip.eorZpX (n : Sys2Proof.Byte) :
    Sys2Proof.Laws.RoundTrip.Statement (.eorZpX n) := ⟨fun _ => rfl, rfl⟩
theorem Sys2Proof.Laws.RoundTrip.lsrZpX (n : Sys2Proof.Byte) :
    Sys2Proof.Laws.RoundTrip.Statement (.lsrZpX n) := ⟨fun _ => rfl, rfl⟩
theorem Sys2Proof.Laws.RoundTrip.sreZpX (n : Sys2Proof.Byte) :
    Sys2Proof.Laws.RoundTrip.Statement (.sreZpX n) := ⟨fun _ => rfl, rfl⟩
theorem Sys2Proof.Laws.RoundTrip.cli :
    Sys2Proof.Laws.RoundTrip.Statement (.cli) := ⟨fun _ => rfl, rfl⟩
theorem Sys2Proof.Laws.RoundTrip.eorAbsY (lo hi : Sys2Proof.Byte) :
    Sys2Proof.Laws.RoundTrip.Statement (.eorAbsY lo hi) := ⟨fun _ => rfl, rfl⟩
theorem Sys2Proof.Laws.RoundTrip.nop5A :
    Sys2Proof.Laws.RoundTrip.Statement (.nop5A) := ⟨fun _ => rfl, rfl⟩
theorem Sys2Proof.Laws.RoundTrip.sreAbsY (lo hi : Sys2Proof.Byte) :
    Sys2Proof.Laws.RoundTrip.Statement (.sreAbsY lo hi) := ⟨fun _ => rfl, rfl⟩
theorem Sys2Proof.Laws.RoundTrip.nop5CAbsX (lo hi : Sys2Proof.Byte) :
    Sys2Proof.Laws.RoundTrip.Statement (.nop5CAbsX lo hi) := ⟨fun _ => rfl, rfl⟩
theorem Sys2Proof.Laws.RoundTrip.eorAbsX (lo hi : Sys2Proof.Byte) :
    Sys2Proof.Laws.RoundTrip.Statement (.eorAbsX lo hi) := ⟨fun _ => rfl, rfl⟩
theorem Sys2Proof.Laws.RoundTrip.lsrAbsX (lo hi : Sys2Proof.Byte) :
    Sys2Proof.Laws.RoundTrip.Statement (.lsrAbsX lo hi) := ⟨fun _ => rfl, rfl⟩
theorem Sys2Proof.Laws.RoundTrip.sreAbsX (lo hi : Sys2Proof.Byte) :
    Sys2Proof.Laws.RoundTrip.Statement (.sreAbsX lo hi) := ⟨fun _ => rfl, rfl⟩
theorem Sys2Proof.Laws.RoundTrip.rts :
    Sys2Proof.Laws.RoundTrip.Statement (.rts) := ⟨fun _ => rfl, rfl⟩
theorem Sys2Proof.Laws.RoundTrip.adcIndX (n : Sys2Proof.Byte) :
    Sys2Proof.Laws.RoundTrip.Statement (.adcIndX n) := ⟨fun _ => rfl, rfl⟩
theorem Sys2Proof.Laws.RoundTrip.jam62 :
    Sys2Proof.Laws.RoundTrip.Statement (.jam62) := ⟨fun _ => rfl, rfl⟩
theorem Sys2Proof.Laws.RoundTrip.rraIndX (n : Sys2Proof.Byte) :
    Sys2Proof.Laws.RoundTrip.Statement (.rraIndX n) := ⟨fun _ => rfl, rfl⟩
theorem Sys2Proof.Laws.RoundTrip.nop64Zp (n : Sys2Proof.Byte) :
    Sys2Proof.Laws.RoundTrip.Statement (.nop64Zp n) := ⟨fun _ => rfl, rfl⟩
theorem Sys2Proof.Laws.RoundTrip.adcZp (n : Sys2Proof.Byte) :
    Sys2Proof.Laws.RoundTrip.Statement (.adcZp n) := ⟨fun _ => rfl, rfl⟩
theorem Sys2Proof.Laws.RoundTrip.rorZp (n : Sys2Proof.Byte) :
    Sys2Proof.Laws.RoundTrip.Statement (.rorZp n) := ⟨fun _ => rfl, rfl⟩
theorem Sys2Proof.Laws.RoundTrip.rraZp (n : Sys2Proof.Byte) :
    Sys2Proof.Laws.RoundTrip.Statement (.rraZp n) := ⟨fun _ => rfl, rfl⟩
theorem Sys2Proof.Laws.RoundTrip.pla :
    Sys2Proof.Laws.RoundTrip.Statement (.pla) := ⟨fun _ => rfl, rfl⟩
theorem Sys2Proof.Laws.RoundTrip.adcImm (n : Sys2Proof.Byte) :
    Sys2Proof.Laws.RoundTrip.Statement (.adcImm n) := ⟨fun _ => rfl, rfl⟩
theorem Sys2Proof.Laws.RoundTrip.rorAcc :
    Sys2Proof.Laws.RoundTrip.Statement (.rorAcc) := ⟨fun _ => rfl, rfl⟩
theorem Sys2Proof.Laws.RoundTrip.arrImm (n : Sys2Proof.Byte) :
    Sys2Proof.Laws.RoundTrip.Statement (.arrImm n) := ⟨fun _ => rfl, rfl⟩
theorem Sys2Proof.Laws.RoundTrip.jmpInd (lo hi : Sys2Proof.Byte) :
    Sys2Proof.Laws.RoundTrip.Statement (.jmpInd lo hi) := ⟨fun _ => rfl, rfl⟩
theorem Sys2Proof.Laws.RoundTrip.adcAbs (lo hi : Sys2Proof.Byte) :
    Sys2Proof.Laws.RoundTrip.Statement (.adcAbs lo hi) := ⟨fun _ => rfl, rfl⟩
theorem Sys2Proof.Laws.RoundTrip.rorAbs (lo hi : Sys2Proof.Byte) :
    Sys2Proof.Laws.RoundTrip.Statement (.rorAbs lo hi) := ⟨fun _ => rfl, rfl⟩
theorem Sys2Proof.Laws.RoundTrip.rraAbs (lo hi : Sys2Proof.Byte) :
    Sys2Proof.Laws.RoundTrip.Statement (.rraAbs lo hi) := ⟨fun _ => rfl, rfl⟩
theorem Sys2Proof.Laws.RoundTrip.bvs (n : Sys2Proof.Byte) :
    Sys2Proof.Laws.RoundTrip.Statement (.bvs n) := ⟨fun _ => rfl, rfl⟩
theorem Sys2Proof.Laws.RoundTrip.adcIndY (n : Sys2Proof.Byte) :
    Sys2Proof.Laws.RoundTrip.Statement (.adcIndY n) := ⟨fun _ => rfl, rfl⟩
theorem Sys2Proof.Laws.RoundTrip.jam72 :
    Sys2Proof.Laws.RoundTrip.Statement (.jam72) := ⟨fun _ => rfl, rfl⟩
theorem Sys2Proof.Laws.RoundTrip.rraIndY (n : Sys2Proof.Byte) :
    Sys2Proof.Laws.RoundTrip.Statement (.rraIndY n) := ⟨fun _ => rfl, rfl⟩
theorem Sys2Proof.Laws.RoundTrip.nop74ZpX (n : Sys2Proof.Byte) :
    Sys2Proof.Laws.RoundTrip.Statement (.nop74ZpX n) := ⟨fun _ => rfl, rfl⟩
theorem Sys2Proof.Laws.RoundTrip.adcZpX (n : Sys2Proof.Byte) :
    Sys2Proof.Laws.RoundTrip.Statement (.adcZpX n) := ⟨fun _ => rfl, rfl⟩
theorem Sys2Proof.Laws.RoundTrip.rorZpX (n : Sys2Proof.Byte) :
    Sys2Proof.Laws.RoundTrip.Statement (.rorZpX n) := ⟨fun _ => rfl, rfl⟩
theorem Sys2Proof.Laws.RoundTrip.rraZpX (n : Sys2Proof.Byte) :
    Sys2Proof.Laws.RoundTrip.Statement (.rraZpX n) := ⟨fun _ => rfl, rfl⟩
theorem Sys2Proof.Laws.RoundTrip.sei :
    Sys2Proof.Laws.RoundTrip.Statement (.sei) := ⟨fun _ => rfl, rfl⟩
theorem Sys2Proof.Laws.RoundTrip.adcAbsY (lo hi : Sys2Proof.Byte) :
    Sys2Proof.Laws.RoundTrip.Statement (.adcAbsY lo hi) := ⟨fun _ => rfl, rfl⟩
theorem Sys2Proof.Laws.RoundTrip.nop7A :
    Sys2Proof.Laws.RoundTrip.Statement (.nop7A) := ⟨fun _ => rfl, rfl⟩
theorem Sys2Proof.Laws.RoundTrip.rraAbsY (lo hi : Sys2Proof.Byte) :
    Sys2Proof.Laws.RoundTrip.Statement (.rraAbsY lo hi) := ⟨fun _ => rfl, rfl⟩
theorem Sys2Proof.Laws.RoundTrip.nop7CAbsX (lo hi : Sys2Proof.Byte) :
    Sys2Proof.Laws.RoundTrip.Statement (.nop7CAbsX lo hi) := ⟨fun _ => rfl, rfl⟩
theorem Sys2Proof.Laws.RoundTrip.adcAbsX (lo hi : Sys2Proof.Byte) :
    Sys2Proof.Laws.RoundTrip.Statement (.adcAbsX lo hi) := ⟨fun _ => rfl, rfl⟩
theorem Sys2Proof.Laws.RoundTrip.rorAbsX (lo hi : Sys2Proof.Byte) :
    Sys2Proof.Laws.RoundTrip.Statement (.rorAbsX lo hi) := ⟨fun _ => rfl, rfl⟩
theorem Sys2Proof.Laws.RoundTrip.rraAbsX (lo hi : Sys2Proof.Byte) :
    Sys2Proof.Laws.RoundTrip.Statement (.rraAbsX lo hi) := ⟨fun _ => rfl, rfl⟩
theorem Sys2Proof.Laws.RoundTrip.nop80Imm (n : Sys2Proof.Byte) :
    Sys2Proof.Laws.RoundTrip.Statement (.nop80Imm n) := ⟨fun _ => rfl, rfl⟩
theorem Sys2Proof.Laws.RoundTrip.staIndX (n : Sys2Proof.Byte) :
    Sys2Proof.Laws.RoundTrip.Statement (.staIndX n) := ⟨fun _ => rfl, rfl⟩
theorem Sys2Proof.Laws.RoundTrip.nop82Imm (n : Sys2Proof.Byte) :
    Sys2Proof.Laws.RoundTrip.Statement (.nop82Imm n) := ⟨fun _ => rfl, rfl⟩
theorem Sys2Proof.Laws.RoundTrip.saxIndX (n : Sys2Proof.Byte) :
    Sys2Proof.Laws.RoundTrip.Statement (.saxIndX n) := ⟨fun _ => rfl, rfl⟩
theorem Sys2Proof.Laws.RoundTrip.styZp (n : Sys2Proof.Byte) :
    Sys2Proof.Laws.RoundTrip.Statement (.styZp n) := ⟨fun _ => rfl, rfl⟩
theorem Sys2Proof.Laws.RoundTrip.staZp (n : Sys2Proof.Byte) :
    Sys2Proof.Laws.RoundTrip.Statement (.staZp n) := ⟨fun _ => rfl, rfl⟩
theorem Sys2Proof.Laws.RoundTrip.stxZp (n : Sys2Proof.Byte) :
    Sys2Proof.Laws.RoundTrip.Statement (.stxZp n) := ⟨fun _ => rfl, rfl⟩
theorem Sys2Proof.Laws.RoundTrip.saxZp (n : Sys2Proof.Byte) :
    Sys2Proof.Laws.RoundTrip.Statement (.saxZp n) := ⟨fun _ => rfl, rfl⟩
theorem Sys2Proof.Laws.RoundTrip.dey :
    Sys2Proof.Laws.RoundTrip.Statement (.dey) := ⟨fun _ => rfl, rfl⟩
theorem Sys2Proof.Laws.RoundTrip.nop89Imm (n : Sys2Proof.Byte) :
    Sys2Proof.Laws.RoundTrip.Statement (.nop89Imm n) := ⟨fun _ => rfl, rfl⟩
theorem Sys2Proof.Laws.RoundTrip.txa :
    Sys2Proof.Laws.RoundTrip.Statement (.txa) := ⟨fun _ => rfl, rfl⟩
theorem Sys2Proof.Laws.RoundTrip.aneImm (n : Sys2Proof.Byte) :
    Sys2Proof.Laws.RoundTrip.Statement (.aneImm n) := ⟨fun _ => rfl, rfl⟩
theorem Sys2Proof.Laws.RoundTrip.styAbs (lo hi : Sys2Proof.Byte) :
    Sys2Proof.Laws.RoundTrip.Statement (.styAbs lo hi) := ⟨fun _ => rfl, rfl⟩
theorem Sys2Proof.Laws.RoundTrip.staAbs (lo hi : Sys2Proof.Byte) :
    Sys2Proof.Laws.RoundTrip.Statement (.staAbs lo hi) := ⟨fun _ => rfl, rfl⟩
theorem Sys2Proof.Laws.RoundTrip.stxAbs (lo hi : Sys2Proof.Byte) :
    Sys2Proof.Laws.RoundTrip.Statement (.stxAbs lo hi) := ⟨fun _ => rfl, rfl⟩
theorem Sys2Proof.Laws.RoundTrip.saxAbs (lo hi : Sys2Proof.Byte) :
    Sys2Proof.Laws.RoundTrip.Statement (.saxAbs lo hi) := ⟨fun _ => rfl, rfl⟩
theorem Sys2Proof.Laws.RoundTrip.bcc (n : Sys2Proof.Byte) :
    Sys2Proof.Laws.RoundTrip.Statement (.bcc n) := ⟨fun _ => rfl, rfl⟩
theorem Sys2Proof.Laws.RoundTrip.staIndY (n : Sys2Proof.Byte) :
    Sys2Proof.Laws.RoundTrip.Statement (.staIndY n) := ⟨fun _ => rfl, rfl⟩
theorem Sys2Proof.Laws.RoundTrip.jam92 :
    Sys2Proof.Laws.RoundTrip.Statement (.jam92) := ⟨fun _ => rfl, rfl⟩
theorem Sys2Proof.Laws.RoundTrip.shaIndY (n : Sys2Proof.Byte) :
    Sys2Proof.Laws.RoundTrip.Statement (.shaIndY n) := ⟨fun _ => rfl, rfl⟩
theorem Sys2Proof.Laws.RoundTrip.styZpX (n : Sys2Proof.Byte) :
    Sys2Proof.Laws.RoundTrip.Statement (.styZpX n) := ⟨fun _ => rfl, rfl⟩
theorem Sys2Proof.Laws.RoundTrip.staZpX (n : Sys2Proof.Byte) :
    Sys2Proof.Laws.RoundTrip.Statement (.staZpX n) := ⟨fun _ => rfl, rfl⟩
theorem Sys2Proof.Laws.RoundTrip.stxZpY (n : Sys2Proof.Byte) :
    Sys2Proof.Laws.RoundTrip.Statement (.stxZpY n) := ⟨fun _ => rfl, rfl⟩
theorem Sys2Proof.Laws.RoundTrip.saxZpY (n : Sys2Proof.Byte) :
    Sys2Proof.Laws.RoundTrip.Statement (.saxZpY n) := ⟨fun _ => rfl, rfl⟩
theorem Sys2Proof.Laws.RoundTrip.tya :
    Sys2Proof.Laws.RoundTrip.Statement (.tya) := ⟨fun _ => rfl, rfl⟩
theorem Sys2Proof.Laws.RoundTrip.staAbsY (lo hi : Sys2Proof.Byte) :
    Sys2Proof.Laws.RoundTrip.Statement (.staAbsY lo hi) := ⟨fun _ => rfl, rfl⟩
theorem Sys2Proof.Laws.RoundTrip.txs :
    Sys2Proof.Laws.RoundTrip.Statement (.txs) := ⟨fun _ => rfl, rfl⟩
theorem Sys2Proof.Laws.RoundTrip.tasAbsY (lo hi : Sys2Proof.Byte) :
    Sys2Proof.Laws.RoundTrip.Statement (.tasAbsY lo hi) := ⟨fun _ => rfl, rfl⟩
theorem Sys2Proof.Laws.RoundTrip.shyAbsX (lo hi : Sys2Proof.Byte) :
    Sys2Proof.Laws.RoundTrip.Statement (.shyAbsX lo hi) := ⟨fun _ => rfl, rfl⟩
theorem Sys2Proof.Laws.RoundTrip.staAbsX (lo hi : Sys2Proof.Byte) :
    Sys2Proof.Laws.RoundTrip.Statement (.staAbsX lo hi) := ⟨fun _ => rfl, rfl⟩
theorem Sys2Proof.Laws.RoundTrip.shxAbsY (lo hi : Sys2Proof.Byte) :
    Sys2Proof.Laws.RoundTrip.Statement (.shxAbsY lo hi) := ⟨fun _ => rfl, rfl⟩
theorem Sys2Proof.Laws.RoundTrip.shaAbsY (lo hi : Sys2Proof.Byte) :
    Sys2Proof.Laws.RoundTrip.Statement (.shaAbsY lo hi) := ⟨fun _ => rfl, rfl⟩
theorem Sys2Proof.Laws.RoundTrip.ldyImm (n : Sys2Proof.Byte) :
    Sys2Proof.Laws.RoundTrip.Statement (.ldyImm n) := ⟨fun _ => rfl, rfl⟩
theorem Sys2Proof.Laws.RoundTrip.ldaIndX (n : Sys2Proof.Byte) :
    Sys2Proof.Laws.RoundTrip.Statement (.ldaIndX n) := ⟨fun _ => rfl, rfl⟩
theorem Sys2Proof.Laws.RoundTrip.ldxImm (n : Sys2Proof.Byte) :
    Sys2Proof.Laws.RoundTrip.Statement (.ldxImm n) := ⟨fun _ => rfl, rfl⟩
theorem Sys2Proof.Laws.RoundTrip.laxIndX (n : Sys2Proof.Byte) :
    Sys2Proof.Laws.RoundTrip.Statement (.laxIndX n) := ⟨fun _ => rfl, rfl⟩
theorem Sys2Proof.Laws.RoundTrip.ldyZp (n : Sys2Proof.Byte) :
    Sys2Proof.Laws.RoundTrip.Statement (.ldyZp n) := ⟨fun _ => rfl, rfl⟩
theorem Sys2Proof.Laws.RoundTrip.ldaZp (n : Sys2Proof.Byte) :
    Sys2Proof.Laws.RoundTrip.Statement (.ldaZp n) := ⟨fun _ => rfl, rfl⟩
theorem Sys2Proof.Laws.RoundTrip.ldxZp (n : Sys2Proof.Byte) :
    Sys2Proof.Laws.RoundTrip.Statement (.ldxZp n) := ⟨fun _ => rfl, rfl⟩
theorem Sys2Proof.Laws.RoundTrip.laxZp (n : Sys2Proof.Byte) :
    Sys2Proof.Laws.RoundTrip.Statement (.laxZp n) := ⟨fun _ => rfl, rfl⟩
theorem Sys2Proof.Laws.RoundTrip.tay :
    Sys2Proof.Laws.RoundTrip.Statement (.tay) := ⟨fun _ => rfl, rfl⟩
theorem Sys2Proof.Laws.RoundTrip.ldaImm (n : Sys2Proof.Byte) :
    Sys2Proof.Laws.RoundTrip.Statement (.ldaImm n) := ⟨fun _ => rfl, rfl⟩
theorem Sys2Proof.Laws.RoundTrip.tax :
    Sys2Proof.Laws.RoundTrip.Statement (.tax) := ⟨fun _ => rfl, rfl⟩
theorem Sys2Proof.Laws.RoundTrip.lxaImm (n : Sys2Proof.Byte) :
    Sys2Proof.Laws.RoundTrip.Statement (.lxaImm n) := ⟨fun _ => rfl, rfl⟩
theorem Sys2Proof.Laws.RoundTrip.ldyAbs (lo hi : Sys2Proof.Byte) :
    Sys2Proof.Laws.RoundTrip.Statement (.ldyAbs lo hi) := ⟨fun _ => rfl, rfl⟩
theorem Sys2Proof.Laws.RoundTrip.ldaAbs (lo hi : Sys2Proof.Byte) :
    Sys2Proof.Laws.RoundTrip.Statement (.ldaAbs lo hi) := ⟨fun _ => rfl, rfl⟩
theorem Sys2Proof.Laws.RoundTrip.ldxAbs (lo hi : Sys2Proof.Byte) :
    Sys2Proof.Laws.RoundTrip.Statement (.ldxAbs lo hi) := ⟨fun _ => rfl, rfl⟩
theorem Sys2Proof.Laws.RoundTrip.laxAbs (lo hi : Sys2Proof.Byte) :
    Sys2Proof.Laws.RoundTrip.Statement (.laxAbs lo hi) := ⟨fun _ => rfl, rfl⟩
theorem Sys2Proof.Laws.RoundTrip.bcs (n : Sys2Proof.Byte) :
    Sys2Proof.Laws.RoundTrip.Statement (.bcs n) := ⟨fun _ => rfl, rfl⟩
theorem Sys2Proof.Laws.RoundTrip.ldaIndY (n : Sys2Proof.Byte) :
    Sys2Proof.Laws.RoundTrip.Statement (.ldaIndY n) := ⟨fun _ => rfl, rfl⟩
theorem Sys2Proof.Laws.RoundTrip.jamB2 :
    Sys2Proof.Laws.RoundTrip.Statement (.jamB2) := ⟨fun _ => rfl, rfl⟩
theorem Sys2Proof.Laws.RoundTrip.laxIndY (n : Sys2Proof.Byte) :
    Sys2Proof.Laws.RoundTrip.Statement (.laxIndY n) := ⟨fun _ => rfl, rfl⟩
theorem Sys2Proof.Laws.RoundTrip.ldyZpX (n : Sys2Proof.Byte) :
    Sys2Proof.Laws.RoundTrip.Statement (.ldyZpX n) := ⟨fun _ => rfl, rfl⟩
theorem Sys2Proof.Laws.RoundTrip.ldaZpX (n : Sys2Proof.Byte) :
    Sys2Proof.Laws.RoundTrip.Statement (.ldaZpX n) := ⟨fun _ => rfl, rfl⟩
theorem Sys2Proof.Laws.RoundTrip.ldxZpY (n : Sys2Proof.Byte) :
    Sys2Proof.Laws.RoundTrip.Statement (.ldxZpY n) := ⟨fun _ => rfl, rfl⟩
theorem Sys2Proof.Laws.RoundTrip.laxZpY (n : Sys2Proof.Byte) :
    Sys2Proof.Laws.RoundTrip.Statement (.laxZpY n) := ⟨fun _ => rfl, rfl⟩
theorem Sys2Proof.Laws.RoundTrip.clv :
    Sys2Proof.Laws.RoundTrip.Statement (.clv) := ⟨fun _ => rfl, rfl⟩
theorem Sys2Proof.Laws.RoundTrip.ldaAbsY (lo hi : Sys2Proof.Byte) :
    Sys2Proof.Laws.RoundTrip.Statement (.ldaAbsY lo hi) := ⟨fun _ => rfl, rfl⟩
theorem Sys2Proof.Laws.RoundTrip.tsx :
    Sys2Proof.Laws.RoundTrip.Statement (.tsx) := ⟨fun _ => rfl, rfl⟩
theorem Sys2Proof.Laws.RoundTrip.lasAbsY (lo hi : Sys2Proof.Byte) :
    Sys2Proof.Laws.RoundTrip.Statement (.lasAbsY lo hi) := ⟨fun _ => rfl, rfl⟩
theorem Sys2Proof.Laws.RoundTrip.ldyAbsX (lo hi : Sys2Proof.Byte) :
    Sys2Proof.Laws.RoundTrip.Statement (.ldyAbsX lo hi) := ⟨fun _ => rfl, rfl⟩
theorem Sys2Proof.Laws.RoundTrip.ldaAbsX (lo hi : Sys2Proof.Byte) :
    Sys2Proof.Laws.RoundTrip.Statement (.ldaAbsX lo hi) := ⟨fun _ => rfl, rfl⟩
theorem Sys2Proof.Laws.RoundTrip.ldxAbsY (lo hi : Sys2Proof.Byte) :
    Sys2Proof.Laws.RoundTrip.Statement (.ldxAbsY lo hi) := ⟨fun _ => rfl, rfl⟩
theorem Sys2Proof.Laws.RoundTrip.laxAbsY (lo hi : Sys2Proof.Byte) :
    Sys2Proof.Laws.RoundTrip.Statement (.laxAbsY lo hi) := ⟨fun _ => rfl, rfl⟩
theorem Sys2Proof.Laws.RoundTrip.cpyImm (n : Sys2Proof.Byte) :
    Sys2Proof.Laws.RoundTrip.Statement (.cpyImm n) := ⟨fun _ => rfl, rfl⟩
theorem Sys2Proof.Laws.RoundTrip.cmpIndX (n : Sys2Proof.Byte) :
    Sys2Proof.Laws.RoundTrip.Statement (.cmpIndX n) := ⟨fun _ => rfl, rfl⟩
theorem Sys2Proof.Laws.RoundTrip.nopC2Imm (n : Sys2Proof.Byte) :
    Sys2Proof.Laws.RoundTrip.Statement (.nopC2Imm n) := ⟨fun _ => rfl, rfl⟩
theorem Sys2Proof.Laws.RoundTrip.dcpIndX (n : Sys2Proof.Byte) :
    Sys2Proof.Laws.RoundTrip.Statement (.dcpIndX n) := ⟨fun _ => rfl, rfl⟩
theorem Sys2Proof.Laws.RoundTrip.cpyZp (n : Sys2Proof.Byte) :
    Sys2Proof.Laws.RoundTrip.Statement (.cpyZp n) := ⟨fun _ => rfl, rfl⟩
theorem Sys2Proof.Laws.RoundTrip.cmpZp (n : Sys2Proof.Byte) :
    Sys2Proof.Laws.RoundTrip.Statement (.cmpZp n) := ⟨fun _ => rfl, rfl⟩
theorem Sys2Proof.Laws.RoundTrip.decZp (n : Sys2Proof.Byte) :
    Sys2Proof.Laws.RoundTrip.Statement (.decZp n) := ⟨fun _ => rfl, rfl⟩
theorem Sys2Proof.Laws.RoundTrip.dcpZp (n : Sys2Proof.Byte) :
    Sys2Proof.Laws.RoundTrip.Statement (.dcpZp n) := ⟨fun _ => rfl, rfl⟩
theorem Sys2Proof.Laws.RoundTrip.iny :
    Sys2Proof.Laws.RoundTrip.Statement (.iny) := ⟨fun _ => rfl, rfl⟩
theorem Sys2Proof.Laws.RoundTrip.cmpImm (n : Sys2Proof.Byte) :
    Sys2Proof.Laws.RoundTrip.Statement (.cmpImm n) := ⟨fun _ => rfl, rfl⟩
theorem Sys2Proof.Laws.RoundTrip.dex :
    Sys2Proof.Laws.RoundTrip.Statement (.dex) := ⟨fun _ => rfl, rfl⟩
theorem Sys2Proof.Laws.RoundTrip.sbxImm (n : Sys2Proof.Byte) :
    Sys2Proof.Laws.RoundTrip.Statement (.sbxImm n) := ⟨fun _ => rfl, rfl⟩
theorem Sys2Proof.Laws.RoundTrip.cpyAbs (lo hi : Sys2Proof.Byte) :
    Sys2Proof.Laws.RoundTrip.Statement (.cpyAbs lo hi) := ⟨fun _ => rfl, rfl⟩
theorem Sys2Proof.Laws.RoundTrip.cmpAbs (lo hi : Sys2Proof.Byte) :
    Sys2Proof.Laws.RoundTrip.Statement (.cmpAbs lo hi) := ⟨fun _ => rfl, rfl⟩
theorem Sys2Proof.Laws.RoundTrip.decAbs (lo hi : Sys2Proof.Byte) :
    Sys2Proof.Laws.RoundTrip.Statement (.decAbs lo hi) := ⟨fun _ => rfl, rfl⟩
theorem Sys2Proof.Laws.RoundTrip.dcpAbs (lo hi : Sys2Proof.Byte) :
    Sys2Proof.Laws.RoundTrip.Statement (.dcpAbs lo hi) := ⟨fun _ => rfl, rfl⟩
theorem Sys2Proof.Laws.RoundTrip.bne (n : Sys2Proof.Byte) :
    Sys2Proof.Laws.RoundTrip.Statement (.bne n) := ⟨fun _ => rfl, rfl⟩
theorem Sys2Proof.Laws.RoundTrip.cmpIndY (n : Sys2Proof.Byte) :
    Sys2Proof.Laws.RoundTrip.Statement (.cmpIndY n) := ⟨fun _ => rfl, rfl⟩
theorem Sys2Proof.Laws.RoundTrip.jamD2 :
    Sys2Proof.Laws.RoundTrip.Statement (.jamD2) := ⟨fun _ => rfl, rfl⟩
theorem Sys2Proof.Laws.RoundTrip.dcpIndY (n : Sys2Proof.Byte) :
    Sys2Proof.Laws.RoundTrip.Statement (.dcpIndY n) := ⟨fun _ => rfl, rfl⟩
theorem Sys2Proof.Laws.RoundTrip.nopD4ZpX (n : Sys2Proof.Byte) :
    Sys2Proof.Laws.RoundTrip.Statement (.nopD4ZpX n) := ⟨fun _ => rfl, rfl⟩
theorem Sys2Proof.Laws.RoundTrip.cmpZpX (n : Sys2Proof.Byte) :
    Sys2Proof.Laws.RoundTrip.Statement (.cmpZpX n) := ⟨fun _ => rfl, rfl⟩
theorem Sys2Proof.Laws.RoundTrip.decZpX (n : Sys2Proof.Byte) :
    Sys2Proof.Laws.RoundTrip.Statement (.decZpX n) := ⟨fun _ => rfl, rfl⟩
theorem Sys2Proof.Laws.RoundTrip.dcpZpX (n : Sys2Proof.Byte) :
    Sys2Proof.Laws.RoundTrip.Statement (.dcpZpX n) := ⟨fun _ => rfl, rfl⟩
theorem Sys2Proof.Laws.RoundTrip.cld :
    Sys2Proof.Laws.RoundTrip.Statement (.cld) := ⟨fun _ => rfl, rfl⟩
theorem Sys2Proof.Laws.RoundTrip.cmpAbsY (lo hi : Sys2Proof.Byte) :
    Sys2Proof.Laws.RoundTrip.Statement (.cmpAbsY lo hi) := ⟨fun _ => rfl, rfl⟩
theorem Sys2Proof.Laws.RoundTrip.nopDA :
    Sys2Proof.Laws.RoundTrip.Statement (.nopDA) := ⟨fun _ => rfl, rfl⟩
theorem Sys2Proof.Laws.RoundTrip.dcpAbsY (lo hi : Sys2Proof.Byte) :
    Sys2Proof.Laws.RoundTrip.Statement (.dcpAbsY lo hi) := ⟨fun _ => rfl, rfl⟩
theorem Sys2Proof.Laws.RoundTrip.nopDCAbsX (lo hi : Sys2Proof.Byte) :
    Sys2Proof.Laws.RoundTrip.Statement (.nopDCAbsX lo hi) := ⟨fun _ => rfl, rfl⟩
theorem Sys2Proof.Laws.RoundTrip.cmpAbsX (lo hi : Sys2Proof.Byte) :
    Sys2Proof.Laws.RoundTrip.Statement (.cmpAbsX lo hi) := ⟨fun _ => rfl, rfl⟩
theorem Sys2Proof.Laws.RoundTrip.decAbsX (lo hi : Sys2Proof.Byte) :
    Sys2Proof.Laws.RoundTrip.Statement (.decAbsX lo hi) := ⟨fun _ => rfl, rfl⟩
theorem Sys2Proof.Laws.RoundTrip.dcpAbsX (lo hi : Sys2Proof.Byte) :
    Sys2Proof.Laws.RoundTrip.Statement (.dcpAbsX lo hi) := ⟨fun _ => rfl, rfl⟩
theorem Sys2Proof.Laws.RoundTrip.cpxImm (n : Sys2Proof.Byte) :
    Sys2Proof.Laws.RoundTrip.Statement (.cpxImm n) := ⟨fun _ => rfl, rfl⟩
theorem Sys2Proof.Laws.RoundTrip.sbcIndX (n : Sys2Proof.Byte) :
    Sys2Proof.Laws.RoundTrip.Statement (.sbcIndX n) := ⟨fun _ => rfl, rfl⟩
theorem Sys2Proof.Laws.RoundTrip.nopE2Imm (n : Sys2Proof.Byte) :
    Sys2Proof.Laws.RoundTrip.Statement (.nopE2Imm n) := ⟨fun _ => rfl, rfl⟩
theorem Sys2Proof.Laws.RoundTrip.iscIndX (n : Sys2Proof.Byte) :
    Sys2Proof.Laws.RoundTrip.Statement (.iscIndX n) := ⟨fun _ => rfl, rfl⟩
theorem Sys2Proof.Laws.RoundTrip.cpxZp (n : Sys2Proof.Byte) :
    Sys2Proof.Laws.RoundTrip.Statement (.cpxZp n) := ⟨fun _ => rfl, rfl⟩
theorem Sys2Proof.Laws.RoundTrip.sbcZp (n : Sys2Proof.Byte) :
    Sys2Proof.Laws.RoundTrip.Statement (.sbcZp n) := ⟨fun _ => rfl, rfl⟩
theorem Sys2Proof.Laws.RoundTrip.incZp (n : Sys2Proof.Byte) :
    Sys2Proof.Laws.RoundTrip.Statement (.incZp n) := ⟨fun _ => rfl, rfl⟩
theorem Sys2Proof.Laws.RoundTrip.iscZp (n : Sys2Proof.Byte) :
    Sys2Proof.Laws.RoundTrip.Statement (.iscZp n) := ⟨fun _ => rfl, rfl⟩
theorem Sys2Proof.Laws.RoundTrip.inx :
    Sys2Proof.Laws.RoundTrip.Statement (.inx) := ⟨fun _ => rfl, rfl⟩
theorem Sys2Proof.Laws.RoundTrip.sbcImm (n : Sys2Proof.Byte) :
    Sys2Proof.Laws.RoundTrip.Statement (.sbcImm n) := ⟨fun _ => rfl, rfl⟩
theorem Sys2Proof.Laws.RoundTrip.nop :
    Sys2Proof.Laws.RoundTrip.Statement (.nop) := ⟨fun _ => rfl, rfl⟩
theorem Sys2Proof.Laws.RoundTrip.usbcImm (n : Sys2Proof.Byte) :
    Sys2Proof.Laws.RoundTrip.Statement (.usbcImm n) := ⟨fun _ => rfl, rfl⟩
theorem Sys2Proof.Laws.RoundTrip.cpxAbs (lo hi : Sys2Proof.Byte) :
    Sys2Proof.Laws.RoundTrip.Statement (.cpxAbs lo hi) := ⟨fun _ => rfl, rfl⟩
theorem Sys2Proof.Laws.RoundTrip.sbcAbs (lo hi : Sys2Proof.Byte) :
    Sys2Proof.Laws.RoundTrip.Statement (.sbcAbs lo hi) := ⟨fun _ => rfl, rfl⟩
theorem Sys2Proof.Laws.RoundTrip.incAbs (lo hi : Sys2Proof.Byte) :
    Sys2Proof.Laws.RoundTrip.Statement (.incAbs lo hi) := ⟨fun _ => rfl, rfl⟩
theorem Sys2Proof.Laws.RoundTrip.iscAbs (lo hi : Sys2Proof.Byte) :
    Sys2Proof.Laws.RoundTrip.Statement (.iscAbs lo hi) := ⟨fun _ => rfl, rfl⟩
theorem Sys2Proof.Laws.RoundTrip.beq (n : Sys2Proof.Byte) :
    Sys2Proof.Laws.RoundTrip.Statement (.beq n) := ⟨fun _ => rfl, rfl⟩
theorem Sys2Proof.Laws.RoundTrip.sbcIndY (n : Sys2Proof.Byte) :
    Sys2Proof.Laws.RoundTrip.Statement (.sbcIndY n) := ⟨fun _ => rfl, rfl⟩
theorem Sys2Proof.Laws.RoundTrip.jamF2 :
    Sys2Proof.Laws.RoundTrip.Statement (.jamF2) := ⟨fun _ => rfl, rfl⟩
theorem Sys2Proof.Laws.RoundTrip.iscIndY (n : Sys2Proof.Byte) :
    Sys2Proof.Laws.RoundTrip.Statement (.iscIndY n) := ⟨fun _ => rfl, rfl⟩
theorem Sys2Proof.Laws.RoundTrip.nopF4ZpX (n : Sys2Proof.Byte) :
    Sys2Proof.Laws.RoundTrip.Statement (.nopF4ZpX n) := ⟨fun _ => rfl, rfl⟩
theorem Sys2Proof.Laws.RoundTrip.sbcZpX (n : Sys2Proof.Byte) :
    Sys2Proof.Laws.RoundTrip.Statement (.sbcZpX n) := ⟨fun _ => rfl, rfl⟩
theorem Sys2Proof.Laws.RoundTrip.incZpX (n : Sys2Proof.Byte) :
    Sys2Proof.Laws.RoundTrip.Statement (.incZpX n) := ⟨fun _ => rfl, rfl⟩
theorem Sys2Proof.Laws.RoundTrip.iscZpX (n : Sys2Proof.Byte) :
    Sys2Proof.Laws.RoundTrip.Statement (.iscZpX n) := ⟨fun _ => rfl, rfl⟩
theorem Sys2Proof.Laws.RoundTrip.sed :
    Sys2Proof.Laws.RoundTrip.Statement (.sed) := ⟨fun _ => rfl, rfl⟩
theorem Sys2Proof.Laws.RoundTrip.sbcAbsY (lo hi : Sys2Proof.Byte) :
    Sys2Proof.Laws.RoundTrip.Statement (.sbcAbsY lo hi) := ⟨fun _ => rfl, rfl⟩
theorem Sys2Proof.Laws.RoundTrip.nopFA :
    Sys2Proof.Laws.RoundTrip.Statement (.nopFA) := ⟨fun _ => rfl, rfl⟩
theorem Sys2Proof.Laws.RoundTrip.iscAbsY (lo hi : Sys2Proof.Byte) :
    Sys2Proof.Laws.RoundTrip.Statement (.iscAbsY lo hi) := ⟨fun _ => rfl, rfl⟩
theorem Sys2Proof.Laws.RoundTrip.nopFCAbsX (lo hi : Sys2Proof.Byte) :
    Sys2Proof.Laws.RoundTrip.Statement (.nopFCAbsX lo hi) := ⟨fun _ => rfl, rfl⟩
theorem Sys2Proof.Laws.RoundTrip.sbcAbsX (lo hi : Sys2Proof.Byte) :
    Sys2Proof.Laws.RoundTrip.Statement (.sbcAbsX lo hi) := ⟨fun _ => rfl, rfl⟩
theorem Sys2Proof.Laws.RoundTrip.incAbsX (lo hi : Sys2Proof.Byte) :
    Sys2Proof.Laws.RoundTrip.Statement (.incAbsX lo hi) := ⟨fun _ => rfl, rfl⟩
theorem Sys2Proof.Laws.RoundTrip.iscAbsX (lo hi : Sys2Proof.Byte) :
    Sys2Proof.Laws.RoundTrip.Statement (.iscAbsX lo hi) := ⟨fun _ => rfl, rfl⟩
end

