-- ==== Sys2Proof/Laws/Trace.lean ====
section
/-! SUPPORT. What each operation adds to the bus trace: how many entries, and that memory stays what a replay of the
trace makes of it. -/

namespace Sys2Proof.Machine

/-! ### How many accesses -/

/-- The accesses of one dummy access: 1 with `P_BUS_TRACE = Full`, 0 with `Architectural` (R9). -/
def dummyCount (p : Params) : Nat :=
  match p.busTrace with
  | .full => 1
  | .architectural => 0

theorem dummyCount_le (p : Params) : dummyCount p ≤ 1 := by unfold dummyCount; split <;> decide

theorem dummyRead_length (a : Addr) (s : State) :
    (s.dummyRead a).trace.length = s.trace.length + dummyCount s.params := by
  unfold State.dummyRead dummyCount; split <;> simp [*]

theorem dummyWrite_length (a : Addr) (v : Byte) (s : State) :
    (s.dummyWrite a v).trace.length = s.trace.length + dummyCount s.params := by
  unfold State.dummyWrite dummyCount; split <;> simp [*]

theorem pull_length (s : State) : s.pull.2.trace.length = s.trace.length + 1 := by simp [State.pull]

theorem jumpVector_length (vec : Addr) (s : State) : (s.jumpVector vec).trace.length = s.trace.length + 2 := by
  simp [State.jumpVector]

theorem pushPc_length (s : State) : s.pushPc.trace.length = s.trace.length + 2 := by simp [State.pushPc]

theorem pullPc_length (s : State) : s.pullPc.trace.length = s.trace.length + 2 := by simp [State.pullPc, State.pull]

theorem enterHandler_length (b : Bool) (vec : Addr) (s : State) :
    (s.enterHandler b vec).trace.length = s.trace.length + 5 := by
  simp [State.enterHandler, jumpVector_length, pushPc_length]

theorem leaveHandler_length (s : State) : s.leaveHandler.trace.length = s.trace.length + 3 := by
  simp [State.leaveHandler, pullPc_length, pull_length]

theorem indexed_length (cls : Access) (idx : Byte) (base : Addr) (s : State) :
    (indexed cls idx base s).st.trace.length = s.trace.length + match cls with
      | .read => (indexed cls idx base s).crossed.toNat * dummyCount s.params
      | _ => dummyCount s.params := by
  cases cls <;> simp only [indexed, Target.crossed, dummyRead_length]
  cases h : (hiByte (base + zext16 idx) != hiByte base) <;> simp [dummyRead_length]

/-- The fetches and pointer reads of a mode's address cycles. -/
def Place.reads : Place → Nat
  | .zp _ | .zpX _ | .zpY _ => 1
  | .abs _ _ | .absX _ _ | .absY _ _ => 2
  | .indX _ | .indY _ => 3

/-- The dummy reads of a mode's address cycles, by access class and by whether the address crosses a page. -/
def Place.dummies (cls : Access) (crossed : Bool) : Place → Nat
  | .zp _ | .abs _ _ => 0
  | .zpX _ | .zpY _ | .indX _ => 1
  | .absX _ _ | .absY _ _ | .indY _ =>
    match cls with
    | .read => crossed.toNat
    | _ => 1

theorem address_length (cls : Access) (p : Place) (s : State) :
    (address cls p s).st.trace.length =
      s.trace.length + p.reads + p.dummies cls (address cls p s).crossed * dummyCount s.params := by
  cases p <;> simp only [address, zeroPage, zeroPageIndexed, absolute, Place.reads, Place.dummies, dummyRead_length,
    absoluteIndexed, indexed_length, indexedIndirect, indirectIndexed, zeroPagePointer, State.busRead_snd] <;>
    simp [dummyRead_length]
  all_goals cases cls <;> first | rfl | omega | simp

/-! ### The address cycles only read -/

/-- Every access so far was a read. -/
def OnlyReads (s : State) : Prop := ∀ e ∈ s.trace, e.kind = .read

namespace OnlyReads

variable {s : State}

theorem logRead (h : OnlyReads s) (a : Addr) (v : Byte) : OnlyReads (s.logRead a v) := by
  intro e he
  rw [State.logRead_trace, List.mem_append, List.mem_singleton] at he
  obtain he | rfl := he
  · exact h e he
  · rfl

theorem fetched (h : OnlyReads s) (v : Byte) : OnlyReads (s.fetched v) := h.logRead s.pc v

theorem dummyRead (h : OnlyReads s) (a : Addr) : OnlyReads (s.dummyRead a) := by
  unfold State.dummyRead; split
  · exact h.logRead a _
  · exact h

theorem indexed (h : OnlyReads s) (cls : Access) (idx : Byte) (base : Addr) :
    OnlyReads (Machine.indexed cls idx base s).st := by
  cases cls <;> simp only [Machine.indexed] <;> first | exact h.dummyRead _ | skip
  split
  · exact h.dummyRead _
  · exact h

theorem zeroPagePointer (h : OnlyReads s) (p : Byte) : OnlyReads (Machine.zeroPagePointer p s).2 :=
  (h.logRead _ _).logRead _ _

theorem address (h : OnlyReads s) (cls : Access) (p : Place) : OnlyReads (Machine.address cls p s).st := by
  cases p with
  | zp n => exact h.fetched n
  | zpX n => exact (h.fetched n).dummyRead _
  | zpY n => exact (h.fetched n).dummyRead _
  | abs lo hi => exact (h.fetched lo).fetched hi
  | absX lo hi => exact ((h.fetched lo).fetched hi).indexed _ _ _
  | absY lo hi => exact ((h.fetched lo).fetched hi).indexed _ _ _
  | indX n => exact ((h.fetched n).dummyRead _).zeroPagePointer _
  | indY n => exact ((h.fetched n).zeroPagePointer _).indexed _ _ _

end OnlyReads

theorem beginInstr_onlyReads (op : Byte) (base : Nat) (s : State) : OnlyReads (s.beginInstr op base) := by
  intro e he
  rw [State.beginInstr_trace, List.mem_singleton] at he
  subst he; rfl

theorem addressTrace_onlyReads (i : Instr) (s : State) : ∀ e ∈ addressTrace i s, e.kind = .read := by
  unfold addressTrace targetOf
  cases placeOf i with
  | none => simp
  | some p => exact (beginInstr_onlyReads _ _ s).address _ p

/-! ### Replaying the trace (R63) -/

theorem replay_append (s : State) (m : Memory) (es fs : List BusEntry) :
    replay s m (es ++ fs) = (replay s m es).bind fun m' => replay s m' fs := by
  induction es generalizing m with
  | nil => rfl
  | cons e es ih =>
    simp only [List.cons_append, replay]
    cases e.kind <;> simp only [ih]
    split <;> simp

/-- A replay keeps the canonical form. -/
theorem replay_wf {s : State} {m m' : Memory} {es : List BusEntry} (h : m.wf = true) (hr : replay s m es = some m') :
    m'.wf = true := by
  induction es generalizing m with
  | nil => cases hr; exact h
  | cons e es ih =>
    simp only [replay] at hr
    cases hk : e.kind <;> rw [hk] at hr <;> simp only at hr
    · split at hr
      · exact ih h hr
      · cases hr
    · split at hr
      · exact ih h hr
      · exact ih (Memory.wf_write h e.addr.isLt) hr

/-- In the step that began at `s`, memory is so far what a replay of the trace makes of it. -/
structure Replays (s u : State) : Prop where
  devices : u.devices = s.devices
  replayed : replay s s.mem u.trace = some u.mem

namespace Replays

variable {s u : State}

theorem isDevice (h : Replays s u) (a : Addr) : s.isDevice a = u.isDevice a := by simp [State.isDevice, h.devices]

/-- A change that leaves the bus alone. -/
theorem quiet {t : State} (h : Replays s u) (hd : t.devices = u.devices) (hm : t.mem = u.mem)
    (ht : t.trace = u.trace) : Replays s t := ⟨hd.trans h.devices, by rw [ht, hm]; exact h.replayed⟩

theorem goto (h : Replays s u) (a : Addr) : Replays s (u.goto a) := ⟨h.devices, h.replayed⟩

theorem read (h : Replays s u) (a : Addr) : Replays s (u.logRead a (u.peek a)) := by
  refine ⟨h.devices, ?_⟩
  simp only [State.logRead_trace, replay_append, h.replayed, Option.bind_some, State.logRead_mem, replay]
  rw [h.isDevice]
  cases hd : u.isDevice a
  · simp [State.peek_plain hd]
  · simp

theorem fetched (h : Replays s u) {v : Byte} (hv : v = u.peek u.pc) : Replays s (u.fetched v) := by
  subst hv; exact ⟨(h.read u.pc).devices, (h.read u.pc).replayed⟩

theorem write (h : Replays s u) (a : Addr) (v : Byte) : Replays s (u.busWrite a v) := by
  refine ⟨h.devices, ?_⟩
  simp only [State.busWrite_trace, replay_append, h.replayed, Option.bind_some, State.busWrite_mem, replay]
  rw [h.isDevice]

theorem dummyRead (h : Replays s u) (a : Addr) : Replays s (u.dummyRead a) := by
  unfold State.dummyRead; split
  · exact h.read a
  · exact h

theorem dummyWrite (h : Replays s u) (a : Addr) (v : Byte) : Replays s (u.dummyWrite a v) := by
  unfold State.dummyWrite; split
  · exact h.write a v
  · exact h

theorem push (h : Replays s u) (v : Byte) : Replays s (u.push v) := (h.write u.stackAddr v).quiet rfl rfl rfl

theorem pull (h : Replays s u) : Replays s u.pull.2 := (h.quiet (t := { u with sp := u.sp + 1 }) rfl rfl rfl).read _

theorem pushPc (h : Replays s u) : Replays s u.pushPc := (h.push _).push _

theorem pullPc (h : Replays s u) : Replays s u.pullPc := h.pull.pull.goto _

theorem jumpVector (h : Replays s u) (vec : Addr) : Replays s (u.jumpVector vec) := ((h.read vec).read (vec + 1)).goto _

theorem enterHandler (h : Replays s u) (b : Bool) (vec : Addr) : Replays s (u.enterHandler b vec) :=
  jumpVector (u := (u.pushPc.push (u.pushPc.packP b)).setI true) ((h.pushPc.push _).quiet rfl rfl rfl) vec

theorem leaveHandler (h : Replays s u) : Replays s u.leaveHandler :=
  pullPc (u := u.pull.2.unpackP u.pull.1) (h.pull.quiet rfl rfl rfl)

theorem indexed (h : Replays s u) (cls : Access) (idx : Byte) (base : Addr) :
    Replays s (Machine.indexed cls idx base u).st := by
  cases cls <;> simp only [Machine.indexed] <;> first | exact h.dummyRead _ | skip
  split
  · exact (h.dummyRead _).quiet rfl rfl rfl
  · exact h

theorem zeroPagePointer (h : Replays s u) (p : Byte) : Replays s (Machine.zeroPagePointer p u).2 := (h.read _).read _

end Replays

/-- The operand bytes of a place are those that stand at PC. -/
def Place.atPc (p : Place) (u : State) : Prop :=
  match p with
  | .zp n | .zpX n | .zpY n | .indX n | .indY n => n = u.peek u.pc
  | .abs lo hi | .absX lo hi | .absY lo hi => lo = u.peek u.pc ∧ hi = (u.fetched lo).peek (u.fetched lo).pc

theorem Replays.address {s u : State} (h : Replays s u) (cls : Access) {p : Place} (hp : p.atPc u) :
    Replays s (address cls p u).st := by
  cases p with
  | zp n => exact h.fetched hp
  | zpX n => exact (h.fetched hp).dummyRead _
  | zpY n => exact (h.fetched hp).dummyRead _
  | abs lo hi => exact (h.fetched hp.1).fetched hp.2
  | absX lo hi => exact ((h.fetched hp.1).fetched hp.2).indexed _ _ _
  | absY lo hi => exact ((h.fetched hp.1).fetched hp.2).indexed _ _ _
  | indX n => exact ((h.fetched hp).dummyRead _).zeroPagePointer _
  | indY n => exact ((h.fetched hp).zeroPagePointer _).indexed _ _ _

/-- The opcode fetch, from the state before the step. -/
theorem Replays.beginInstr {s : State} {op : Byte} (base : Nat) (h : op = s.peek s.pc) :
    Replays s (s.beginInstr op base) := Replays.fetched (s := s) (u := s.beginStep base) ⟨rfl, rfl⟩ h

end Sys2Proof.Machine
end

