-- ==== Sys2Proof/Tests/Slice0.lean ====
section
/-! SUPPORT. Tests on fixed values, with results from outside the model: the encodings of spec/30_encoding.md, the
vectors of spec/95_test_vectors.md (a test has its vector's name), and for every statement with hypotheses a witness
that meets them. -/

namespace Sys2Proof.Tests

open Sys2Proof.Machine

/-! ### Helpers -/

/-- Memory with these bytes. -/
def cells (l : List (Nat × Byte)) : Memory := l.foldl (fun m c => m.write c.1 c.2) []

/-- The default state of spec/95_test_vectors.md. -/
def ready : State :=
  { State.reset with
    flagI := false
    pc := 0x8000
    cycles := 2
    trace := []
    params := ⟨Config.allUnofficial, 0xEE, 0xEE, .refuse, .full⟩ }

/-- The state with a program's bytes at PC. -/
def load (code : List Byte) (s : State) : State :=
  { s with mem := (code.foldl (fun (p : Memory × Addr) b => (p.1.write p.2.toNat b, p.2 + 1)) (s.mem, s.pc)).1 }

/-- One step from a state with the bytes at PC. -/
def run (code : List Byte) (s : State) : Result := step (load code s)

/-- What one step leaves, where it answers a next state. -/
def after {α : Type} (code : List Byte) (s : State) (f : State → α) : Option α :=
  match run code s with
  | .next t => some (f t)
  | .fault _ | .refused _ => none

/-- Every pair is a word and the instruction it decodes to, with nothing left over. -/
def decodesAs (l : List (List Byte × Instr)) : Bool := l.all fun p => decode p.1 = .ok (p.2, [])

/-- Why one step refuses, where it does. -/
def refusal (code : List Byte) (s : State) : Option Refusal :=
  match run code s with
  | .refused r => some r
  | .fault _ | .next _ => none

/-- The outcome is a next state. -/
def isNext (r : Result) : Bool :=
  match r with
  | .next _ => true
  | .fault _ | .refused _ => false

/-! ### WellFormed -/

/-- SLO is no instruction of a machine whose `P_UNOFFICIAL` is empty (R260, U8). -/
theorem test_slo_ill_formed : Instr.wellFormed { Config.params with unofficial := [] } (.sloZp 0x10) = false := by decide

/-- It is one of a machine that carries all 105; LDA is one of every machine. -/
theorem test_slo_well_formed :
    Instr.wellFormed Config.params (.sloZp 0x10) = true ∧
      Instr.wellFormed { Config.params with unofficial := [] } (.ldaZp 0x10) = true := by decide

/-- The 105 unofficial opcodes, without repeats (R87, L1-2). -/
theorem test_unofficial_count : Config.allUnofficial.length = 105 ∧ Config.allUnofficial.Nodup := by decide

/-- The opcodes that the table marks unofficial are those of `Config.allUnofficial`. -/
theorem test_unofficial_rows : ∀ op : Byte, (rowOf op).official = !Config.allUnofficial.contains op := by decide

/-! ### Decoding -/

/-- Too few bytes are rejected by name. -/
theorem test_decode_rejects : decode [] = .error .noBytes ∧ decode [0xAD, 0x12] = .error (.truncated 0xAD) := by decide

/-- A table word's bits count on from the first byte (`LDA $1234,X`). -/
theorem test_table_word : decodeTableWord 24 0x1234BD = some (.ldaAbsX 0x34 0x12) := by decide

/-- Operand bits above the row's are zero. -/
theorem test_table_word_short : decodeTableWord 8 0xFFFFA9 = some (.ldaImm 0x00) := by decide

/-- The first step after reset runs the word placed for it. -/
theorem test_with_fetch_word :
    (match step (State.reset.withFetchWord 16 0x42A9) with
      | .next t => t.a
      | .fault _ | .refused _ => 0) = 0x42 := by decide

/-- Encodings of R140 to R144. -/
theorem test_decode_load_store_transfer_1 : decodesAs [
    ([0xA9, 0x12], .ldaImm 0x12), ([0xA5, 0x12], .ldaZp 0x12), ([0xB5, 0x12], .ldaZpX 0x12),
    ([0xAD, 0x12, 0x34], .ldaAbs 0x12 0x34), ([0xBD, 0x12, 0x34], .ldaAbsX 0x12 0x34), ([0xB9, 0x12, 0x34], .ldaAbsY 0x12 0x34),
    ([0xA1, 0x12], .ldaIndX 0x12), ([0xB1, 0x12], .ldaIndY 0x12), ([0xA2, 0x12], .ldxImm 0x12),
    ([0xA6, 0x12], .ldxZp 0x12), ([0xB6, 0x12], .ldxZpY 0x12), ([0xAE, 0x12, 0x34], .ldxAbs 0x12 0x34),
    ([0xBE, 0x12, 0x34], .ldxAbsY 0x12 0x34), ([0xA0, 0x12], .ldyImm 0x12), ([0xA4, 0x12], .ldyZp 0x12),
    ([0xB4, 0x12], .ldyZpX 0x12), ([0xAC, 0x12, 0x34], .ldyAbs 0x12 0x34), ([0xBC, 0x12, 0x34], .ldyAbsX 0x12 0x34),
    ([0x85, 0x12], .staZp 0x12), ([0x95, 0x12], .staZpX 0x12), ([0x8D, 0x12, 0x34], .staAbs 0x12 0x34),
    ([0x9D, 0x12, 0x34], .staAbsX 0x12 0x34), ([0x99, 0x12, 0x34], .staAbsY 0x12 0x34), ([0x81, 0x12], .staIndX 0x12),
    ([0x91, 0x12], .staIndY 0x12), ([0x86, 0x12], .stxZp 0x12), ([0x96, 0x12], .stxZpY 0x12),
    ([0x8E, 0x12, 0x34], .stxAbs 0x12 0x34)] = true := by decide

/-- Encodings of R145 to R151. -/
theorem test_decode_load_store_transfer_2 : decodesAs [
    ([0x84, 0x12], .styZp 0x12), ([0x94, 0x12], .styZpX 0x12), ([0x8C, 0x12, 0x34], .styAbs 0x12 0x34),
    ([0xAA], .tax), ([0xA8], .tay), ([0x8A], .txa),
    ([0x98], .tya), ([0xBA], .tsx), ([0x9A], .txs)] = true := by decide

/-- Encodings of R161 to R164. -/
theorem test_decode_arithmetic_logic_1 : decodesAs [
    ([0x69, 0x12], .adcImm 0x12), ([0x65, 0x12], .adcZp 0x12), ([0x75, 0x12], .adcZpX 0x12),
    ([0x6D, 0x12, 0x34], .adcAbs 0x12 0x34), ([0x7D, 0x12, 0x34], .adcAbsX 0x12 0x34), ([0x79, 0x12, 0x34], .adcAbsY 0x12 0x34),
    ([0x61, 0x12], .adcIndX 0x12), ([0x71, 0x12], .adcIndY 0x12), ([0xE9, 0x12], .sbcImm 0x12),
    ([0xE5, 0x12], .sbcZp 0x12), ([0xF5, 0x12], .sbcZpX 0x12), ([0xED, 0x12, 0x34], .sbcAbs 0x12 0x34),
    ([0xFD, 0x12, 0x34], .sbcAbsX 0x12 0x34), ([0xF9, 0x12, 0x34], .sbcAbsY 0x12 0x34), ([0xE1, 0x12], .sbcIndX 0x12),
    ([0xF1, 0x12], .sbcIndY 0x12), ([0x29, 0x12], .andImm 0x12), ([0x25, 0x12], .andZp 0x12),
    ([0x35, 0x12], .andZpX 0x12), ([0x2D, 0x12, 0x34], .andAbs 0x12 0x34), ([0x3D, 0x12, 0x34], .andAbsX 0x12 0x34),
    ([0x39, 0x12, 0x34], .andAbsY 0x12 0x34), ([0x21, 0x12], .andIndX 0x12), ([0x31, 0x12], .andIndY 0x12),
    ([0x09, 0x12], .oraImm 0x12), ([0x05, 0x12], .oraZp 0x12), ([0x15, 0x12], .oraZpX 0x12),
    ([0x0D, 0x12, 0x34], .oraAbs 0x12 0x34)] = true := by decide

/-- Encodings of R164 to R170. -/
theorem test_decode_arithmetic_logic_2 : decodesAs [
    ([0x1D, 0x12, 0x34], .oraAbsX 0x12 0x34), ([0x19, 0x12, 0x34], .oraAbsY 0x12 0x34), ([0x01, 0x12], .oraIndX 0x12),
    ([0x11, 0x12], .oraIndY 0x12), ([0x49, 0x12], .eorImm 0x12), ([0x45, 0x12], .eorZp 0x12),
    ([0x55, 0x12], .eorZpX 0x12), ([0x4D, 0x12, 0x34], .eorAbs 0x12 0x34), ([0x5D, 0x12, 0x34], .eorAbsX 0x12 0x34),
    ([0x59, 0x12, 0x34], .eorAbsY 0x12 0x34), ([0x41, 0x12], .eorIndX 0x12), ([0x51, 0x12], .eorIndY 0x12),
    ([0xC9, 0x12], .cmpImm 0x12), ([0xC5, 0x12], .cmpZp 0x12), ([0xD5, 0x12], .cmpZpX 0x12),
    ([0xCD, 0x12, 0x34], .cmpAbs 0x12 0x34), ([0xDD, 0x12, 0x34], .cmpAbsX 0x12 0x34), ([0xD9, 0x12, 0x34], .cmpAbsY 0x12 0x34),
    ([0xC1, 0x12], .cmpIndX 0x12), ([0xD1, 0x12], .cmpIndY 0x12), ([0xE0, 0x12], .cpxImm 0x12),
    ([0xE4, 0x12], .cpxZp 0x12), ([0xEC, 0x12, 0x34], .cpxAbs 0x12 0x34), ([0xC0, 0x12], .cpyImm 0x12),
    ([0xC4, 0x12], .cpyZp 0x12), ([0xCC, 0x12, 0x34], .cpyAbs 0x12 0x34), ([0x24, 0x12], .bitZp 0x12),
    ([0x2C, 0x12, 0x34], .bitAbs 0x12 0x34)] = true := by decide

/-- Encodings of R171 to R176. -/
theorem test_decode_arithmetic_logic_3 : decodesAs [
    ([0xE6, 0x12], .incZp 0x12), ([0xF6, 0x12], .incZpX 0x12), ([0xEE, 0x12, 0x34], .incAbs 0x12 0x34),
    ([0xFE, 0x12, 0x34], .incAbsX 0x12 0x34), ([0xC6, 0x12], .decZp 0x12), ([0xD6, 0x12], .decZpX 0x12),
    ([0xCE, 0x12, 0x34], .decAbs 0x12 0x34), ([0xDE, 0x12, 0x34], .decAbsX 0x12 0x34), ([0xE8], .inx),
    ([0xC8], .iny), ([0xCA], .dex), ([0x88], .dey)] = true := by decide

/-- Encodings of R190 to R193. -/
theorem test_decode_shift_rotate_1 : decodesAs [
    ([0x0A], .aslAcc), ([0x06, 0x12], .aslZp 0x12), ([0x16, 0x12], .aslZpX 0x12),
    ([0x0E, 0x12, 0x34], .aslAbs 0x12 0x34), ([0x1E, 0x12, 0x34], .aslAbsX 0x12 0x34), ([0x4A], .lsrAcc),
    ([0x46, 0x12], .lsrZp 0x12), ([0x56, 0x12], .lsrZpX 0x12), ([0x4E, 0x12, 0x34], .lsrAbs 0x12 0x34),
    ([0x5E, 0x12, 0x34], .lsrAbsX 0x12 0x34), ([0x2A], .rolAcc), ([0x26, 0x12], .rolZp 0x12),
    ([0x36, 0x12], .rolZpX 0x12), ([0x2E, 0x12, 0x34], .rolAbs 0x12 0x34), ([0x3E, 0x12, 0x34], .rolAbsX 0x12 0x34),
    ([0x6A], .rorAcc), ([0x66, 0x12], .rorZp 0x12), ([0x76, 0x12], .rorZpX 0x12),
    ([0x6E, 0x12, 0x34], .rorAbs 0x12 0x34), ([0x7E, 0x12, 0x34], .rorAbsX 0x12 0x34)] = true := by decide

/-- Encodings of R200 to R203. -/
theorem test_decode_stack_1 : decodesAs [
    ([0x48], .pha), ([0x08], .php), ([0x68], .pla),
    ([0x28], .plp)] = true := by decide

/-- Encodings of R210 to R223. -/
theorem test_decode_control_transfer_1 : decodesAs [
    ([0x4C, 0x12, 0x34], .jmpAbs 0x12 0x34), ([0x6C, 0x12, 0x34], .jmpInd 0x12 0x34), ([0x20, 0x12, 0x34], .jsrAbs 0x12 0x34),
    ([0x60], .rts), ([0x40], .rti), ([0x00, 0x12], .brk 0x12),
    ([0x90, 0x12], .bcc 0x12), ([0xB0, 0x12], .bcs 0x12), ([0xF0, 0x12], .beq 0x12),
    ([0xD0, 0x12], .bne 0x12), ([0x30, 0x12], .bmi 0x12), ([0x10, 0x12], .bpl 0x12),
    ([0x50, 0x12], .bvc 0x12), ([0x70, 0x12], .bvs 0x12)] = true := by decide

/-- Encodings of R240 to R247. -/
theorem test_decode_flags_nop_1 : decodesAs [
    ([0x18], .clc), ([0xD8], .cld), ([0x58], .cli),
    ([0xB8], .clv), ([0x38], .sec), ([0xF8], .sed),
    ([0x78], .sei), ([0xEA], .nop)] = true := by decide

/-- Encodings of R261 to R262. -/
theorem test_decode_unofficial_1 : decodesAs [
    ([0x1A], .nop1A), ([0x3A], .nop3A), ([0x5A], .nop5A),
    ([0x7A], .nop7A), ([0xDA], .nopDA), ([0xFA], .nopFA),
    ([0x80, 0x12], .nop80Imm 0x12), ([0x82, 0x12], .nop82Imm 0x12), ([0x89, 0x12], .nop89Imm 0x12),
    ([0xC2, 0x12], .nopC2Imm 0x12), ([0xE2, 0x12], .nopE2Imm 0x12), ([0x04, 0x12], .nop04Zp 0x12),
    ([0x44, 0x12], .nop44Zp 0x12), ([0x64, 0x12], .nop64Zp 0x12), ([0x14, 0x12], .nop14ZpX 0x12),
    ([0x34, 0x12], .nop34ZpX 0x12), ([0x54, 0x12], .nop54ZpX 0x12), ([0x74, 0x12], .nop74ZpX 0x12),
    ([0xD4, 0x12], .nopD4ZpX 0x12), ([0xF4, 0x12], .nopF4ZpX 0x12), ([0x0C, 0x12, 0x34], .nop0CAbs 0x12 0x34),
    ([0x1C, 0x12, 0x34], .nop1CAbsX 0x12 0x34), ([0x3C, 0x12, 0x34], .nop3CAbsX 0x12 0x34), ([0x5C, 0x12, 0x34], .nop5CAbsX 0x12 0x34),
    ([0x7C, 0x12, 0x34], .nop7CAbsX 0x12 0x34), ([0xDC, 0x12, 0x34], .nopDCAbsX 0x12 0x34), ([0xFC, 0x12, 0x34], .nopFCAbsX 0x12 0x34),
    ([0x07, 0x12], .sloZp 0x12)] = true := by decide

/-- Encodings of R262 to R268. -/
theorem test_decode_unofficial_2 : decodesAs [
    ([0x17, 0x12], .sloZpX 0x12), ([0x0F, 0x12, 0x34], .sloAbs 0x12 0x34), ([0x1F, 0x12, 0x34], .sloAbsX 0x12 0x34),
    ([0x1B, 0x12, 0x34], .sloAbsY 0x12 0x34), ([0x03, 0x12], .sloIndX 0x12), ([0x13, 0x12], .sloIndY 0x12),
    ([0x27, 0x12], .rlaZp 0x12), ([0x37, 0x12], .rlaZpX 0x12), ([0x2F, 0x12, 0x34], .rlaAbs 0x12 0x34),
    ([0x3F, 0x12, 0x34], .rlaAbsX 0x12 0x34), ([0x3B, 0x12, 0x34], .rlaAbsY 0x12 0x34), ([0x23, 0x12], .rlaIndX 0x12),
    ([0x33, 0x12], .rlaIndY 0x12), ([0x47, 0x12], .sreZp 0x12), ([0x57, 0x12], .sreZpX 0x12),
    ([0x4F, 0x12, 0x34], .sreAbs 0x12 0x34), ([0x5F, 0x12, 0x34], .sreAbsX 0x12 0x34), ([0x5B, 0x12, 0x34], .sreAbsY 0x12 0x34),
    ([0x43, 0x12], .sreIndX 0x12), ([0x53, 0x12], .sreIndY 0x12), ([0x67, 0x12], .rraZp 0x12),
    ([0x77, 0x12], .rraZpX 0x12), ([0x6F, 0x12, 0x34], .rraAbs 0x12 0x34), ([0x7F, 0x12, 0x34], .rraAbsX 0x12 0x34),
    ([0x7B, 0x12, 0x34], .rraAbsY 0x12 0x34), ([0x63, 0x12], .rraIndX 0x12), ([0x73, 0x12], .rraIndY 0x12),
    ([0xC7, 0x12], .dcpZp 0x12)] = true := by decide

/-- Encodings of R268 to R272. -/
theorem test_decode_unofficial_3 : decodesAs [
    ([0xD7, 0x12], .dcpZpX 0x12), ([0xCF, 0x12, 0x34], .dcpAbs 0x12 0x34), ([0xDF, 0x12, 0x34], .dcpAbsX 0x12 0x34),
    ([0xDB, 0x12, 0x34], .dcpAbsY 0x12 0x34), ([0xC3, 0x12], .dcpIndX 0x12), ([0xD3, 0x12], .dcpIndY 0x12),
    ([0xE7, 0x12], .iscZp 0x12), ([0xF7, 0x12], .iscZpX 0x12), ([0xEF, 0x12, 0x34], .iscAbs 0x12 0x34),
    ([0xFF, 0x12, 0x34], .iscAbsX 0x12 0x34), ([0xFB, 0x12, 0x34], .iscAbsY 0x12 0x34), ([0xE3, 0x12], .iscIndX 0x12),
    ([0xF3, 0x12], .iscIndY 0x12), ([0x87, 0x12], .saxZp 0x12), ([0x97, 0x12], .saxZpY 0x12),
    ([0x8F, 0x12, 0x34], .saxAbs 0x12 0x34), ([0x83, 0x12], .saxIndX 0x12), ([0xA7, 0x12], .laxZp 0x12),
    ([0xB7, 0x12], .laxZpY 0x12), ([0xAF, 0x12, 0x34], .laxAbs 0x12 0x34), ([0xBF, 0x12, 0x34], .laxAbsY 0x12 0x34),
    ([0xA3, 0x12], .laxIndX 0x12), ([0xB3, 0x12], .laxIndY 0x12), ([0xBB, 0x12, 0x34], .lasAbsY 0x12 0x34),
    ([0x0B, 0x12], .anc0BImm 0x12), ([0x2B, 0x12], .anc2BImm 0x12), ([0x4B, 0x12], .alrImm 0x12),
    ([0x6B, 0x12], .arrImm 0x12)] = true := by decide

/-- Encodings of R273 to R282. -/
theorem test_decode_unofficial_4 : decodesAs [
    ([0xCB, 0x12], .sbxImm 0x12), ([0xEB, 0x12], .usbcImm 0x12), ([0x8B, 0x12], .aneImm 0x12),
    ([0xAB, 0x12], .lxaImm 0x12), ([0x9F, 0x12, 0x34], .shaAbsY 0x12 0x34), ([0x93, 0x12], .shaIndY 0x12),
    ([0x9E, 0x12, 0x34], .shxAbsY 0x12 0x34), ([0x9C, 0x12, 0x34], .shyAbsX 0x12 0x34), ([0x9B, 0x12, 0x34], .tasAbsY 0x12 0x34),
    ([0x02], .jam02), ([0x12], .jam12), ([0x22], .jam22),
    ([0x32], .jam32), ([0x42], .jam42), ([0x52], .jam52),
    ([0x62], .jam62), ([0x72], .jam72), ([0x92], .jam92),
    ([0xB2], .jamB2), ([0xD2], .jamD2), ([0xF2], .jamF2)] = true := by decide

/-! ### One step per instruction: the vectors of spec/95_test_vectors.md -/

/-- AM-1: `LDA $10`. -/
theorem test_am_1 : after [0xA5, 0x10]
    ({ ready with mem := cells [(0x0010, 0x42)] })
    (fun t => (t.a, t.cycles)) = some (0x42, 3) := by decide

/-- AM-2: `LDA $F0,X`. -/
theorem test_am_2 : after [0xB5, 0xF0]
    ({ ready with x := 0x20, mem := cells [(0x0010, 0x99), (0x0110, 0x11)] })
    (fun t => (t.a, t.flagN, t.cycles)) = some (0x99, true, 4) := by decide

theorem test_am_2_trace : after [0xB5, 0xF0]
    ({ ready with x := 0x20, mem := cells [(0x0010, 0x99), (0x0110, 0x11)] }) State.trace =
    some [⟨.read, 0x8000, 0xB5⟩, ⟨.read, 0x8001, 0xF0⟩, ⟨.read, 0x00F0, 0x00⟩, ⟨.read, 0x0010, 0x99⟩] := by decide

/-- AM-5: `LDA $10FF,X`. -/
theorem test_am_5 : after [0xBD, 0xFF, 0x10]
    ({ ready with x := 0x01, mem := cells [(0x1000, 0x33), (0x1100, 0x80)] })
    (fun t => (t.a, t.flagN, t.cycles)) = some (0x80, true, 5) := by decide

theorem test_am_5_trace : after [0xBD, 0xFF, 0x10]
    ({ ready with x := 0x01, mem := cells [(0x1000, 0x33), (0x1100, 0x80)] }) State.trace =
    some [⟨.read, 0x8000, 0xBD⟩, ⟨.read, 0x8001, 0xFF⟩, ⟨.read, 0x8002, 0x10⟩, ⟨.read, 0x1000, 0x33⟩, ⟨.read, 0x1100, 0x80⟩] := by decide

/-- AM-6: `LDA $FFFF,Y`. -/
theorem test_am_6 : after [0xB9, 0xFF, 0xFF]
    ({ ready with y := 0x02, mem := cells [(0x0001, 0x01)] })
    (fun t => (t.a, t.cycles)) = some (0x01, 5) := by decide

/-- AM-7: `STA $10FF,X`. -/
theorem test_am_7 : after [0x9D, 0xFF, 0x10]
    ({ ready with a := 0x5A, x := 0x01 })
    (fun t => (t.mem.read 0x1100, t.cycles)) = some (0x5A, 5) := by decide

theorem test_am_7_trace : after [0x9D, 0xFF, 0x10]
    ({ ready with a := 0x5A, x := 0x01 }) State.trace =
    some [⟨.read, 0x8000, 0x9D⟩, ⟨.read, 0x8001, 0xFF⟩, ⟨.read, 0x8002, 0x10⟩, ⟨.read, 0x1000, 0x00⟩, ⟨.write, 0x1100, 0x5A⟩] := by decide

/-- AM-9: `LDA ($FE,X)`. -/
theorem test_am_9 : after [0xA1, 0xFE]
    ({ ready with x := 0x01, mem := cells [(0x0000, 0x03), (0x00FF, 0x00), (0x0300, 0x77)] })
    (fun t => (t.a, t.cycles)) = some (0x77, 6) := by decide

theorem test_am_9_trace : after [0xA1, 0xFE]
    ({ ready with x := 0x01, mem := cells [(0x0000, 0x03), (0x00FF, 0x00), (0x0300, 0x77)] }) State.trace =
    some [⟨.read, 0x8000, 0xA1⟩, ⟨.read, 0x8001, 0xFE⟩, ⟨.read, 0x00FE, 0x00⟩, ⟨.read, 0x00FF, 0x00⟩, ⟨.read, 0x0000, 0x03⟩, ⟨.read, 0x0300, 0x77⟩] := by decide

/-- AM-10: `LDA ($FF),Y`. -/
theorem test_am_10 : after [0xB1, 0xFF]
    ({ ready with y := 0x01, mem := cells [(0x0000, 0x02), (0x00FF, 0xFF), (0x0300, 0x66)] })
    (fun t => (t.a, t.cycles)) = some (0x66, 6) := by decide

theorem test_am_10_trace : after [0xB1, 0xFF]
    ({ ready with y := 0x01, mem := cells [(0x0000, 0x02), (0x00FF, 0xFF), (0x0300, 0x66)] }) State.trace =
    some [⟨.read, 0x8000, 0xB1⟩, ⟨.read, 0x8001, 0xFF⟩, ⟨.read, 0x00FF, 0xFF⟩, ⟨.read, 0x0000, 0x02⟩, ⟨.read, 0x0200, 0x00⟩, ⟨.read, 0x0300, 0x66⟩] := by decide

/-- AM-12: `STA ($20),Y`. -/
theorem test_am_12 : after [0x91, 0x20]
    ({ ready with a := 0xEE, y := 0x10, mem := cells [(0x0020, 0x00), (0x0021, 0x03)] })
    (fun t => (t.mem.read 0x0310, t.cycles)) = some (0xEE, 6) := by decide

theorem test_am_12_trace : after [0x91, 0x20]
    ({ ready with a := 0xEE, y := 0x10, mem := cells [(0x0020, 0x00), (0x0021, 0x03)] }) State.trace =
    some [⟨.read, 0x8000, 0x91⟩, ⟨.read, 0x8001, 0x20⟩, ⟨.read, 0x0020, 0x00⟩, ⟨.read, 0x0021, 0x03⟩, ⟨.read, 0x0310, 0x00⟩, ⟨.write, 0x0310, 0xEE⟩] := by decide

/-- AM-13: `INC $0200,X`. -/
theorem test_am_13 : after [0xFE, 0x00, 0x02]
    ({ ready with x := 0x05, mem := cells [(0x0205, 0x7F)] })
    (fun t => (t.flagN, t.mem.read 0x0205, t.cycles)) = some (true, 0x80, 7) := by decide

theorem test_am_13_trace : after [0xFE, 0x00, 0x02]
    ({ ready with x := 0x05, mem := cells [(0x0205, 0x7F)] }) State.trace =
    some [⟨.read, 0x8000, 0xFE⟩, ⟨.read, 0x8001, 0x00⟩, ⟨.read, 0x8002, 0x02⟩, ⟨.read, 0x0205, 0x7F⟩, ⟨.read, 0x0205, 0x7F⟩, ⟨.write, 0x0205, 0x7F⟩, ⟨.write, 0x0205, 0x80⟩] := by decide

/-- AM-15: `JMP ($02FF)`. -/
theorem test_am_15 : after [0x6C, 0xFF, 0x02]
    ({ ready with mem := cells [(0x0200, 0x90), (0x02FF, 0x00), (0x0300, 0x80)] })
    (fun t => (t.pc, t.cycles)) = some (0x9000, 5) := by decide

theorem test_am_15_trace : after [0x6C, 0xFF, 0x02]
    ({ ready with mem := cells [(0x0200, 0x90), (0x02FF, 0x00), (0x0300, 0x80)] }) State.trace =
    some [⟨.read, 0x8000, 0x6C⟩, ⟨.read, 0x8001, 0xFF⟩, ⟨.read, 0x8002, 0x02⟩, ⟨.read, 0x02FF, 0x00⟩, ⟨.read, 0x0200, 0x90⟩] := by decide

/-- LS-2: `LDA #$00`. -/
theorem test_ls_2 : after [0xA9, 0x00]
    ({ ready with flagN := true })
    (fun t => (t.flagN, t.flagZ, t.cycles)) = some (false, true, 2) := by decide

/-- LS-4: `LDY #$FF`. -/
theorem test_ls_4 : after [0xA0, 0xFF]
    (ready)
    (fun t => (t.y, t.flagN, t.cycles)) = some (0xFF, true, 2) := by decide

/-- AM-3: `LDX $FF,Y`. -/
theorem test_am_3 : after [0xB6, 0xFF]
    ({ ready with y := 0x02, mem := cells [(0x0001, 0x7F)] })
    (fun t => (t.x, t.cycles)) = some (0x7F, 4) := by decide

/-- LS-6: `STX $10,Y`. -/
theorem test_ls_6 : after [0x96, 0x10]
    ({ ready with x := 0xAB, y := 0xF5 })
    (fun t => (t.mem.read 0x0005, t.cycles)) = some (0xAB, 4) := by decide

/-- LS-7: `STY $10,X`. -/
theorem test_ls_7 : after [0x94, 0x10]
    ({ ready with x := 0x01, y := 0xCD })
    (fun t => (t.mem.read 0x0011, t.cycles)) = some (0xCD, 4) := by decide

/-- LS-8: `TAX`. -/
theorem test_ls_8 : after [0xAA]
    ({ ready with a := 0x80 })
    (fun t => (t.x, t.flagN, t.cycles)) = some (0x80, true, 2) := by decide

/-- LS-9: `TAY`. -/
theorem test_ls_9 : after [0xA8]
    ({ ready with a := 0x00 })
    (fun t => (t.flagZ, t.cycles)) = some (true, 2) := by decide

/-- LS-10: `TXA`. -/
theorem test_ls_10 : after [0x8A]
    ({ ready with a := 0x80, x := 0x7F, flagN := true })
    (fun t => (t.a, t.flagN, t.cycles)) = some (0x7F, false, 2) := by decide

/-- LS-11: `TYA`. -/
theorem test_ls_11 : after [0x98]
    ({ ready with a := 0x01, y := 0x00 })
    (fun t => (t.a, t.flagZ, t.cycles)) = some (0x00, true, 2) := by decide

/-- LS-12: `TSX`. -/
theorem test_ls_12 : after [0xBA]
    (ready)
    (fun t => (t.x, t.flagN, t.cycles)) = some (0xFD, true, 2) := by decide

/-- LS-13: `TXS`. -/
theorem test_ls_13 : after [0x9A]
    ({ ready with x := 0x00, flagN := true })
    (fun t => (t.sp, t.cycles)) = some (0x00, 2) := by decide

/-- LS-14: `TSX`. -/
theorem test_ls_14 : after [0xBA]
    ({ ready with sp := 0x00 })
    (fun t => (t.flagZ, t.cycles)) = some (true, 2) := by decide

/-- AR-ADC-7F-01-0: `ADC #$01`. -/
theorem test_ar_adc_7f_01_0 : after [0x69, 0x01]
    ({ ready with a := 0x7F })
    (fun t => (t.a, t.flagN, t.flagV, t.cycles)) = some (0x80, true, true, 2) := by decide

/-- AR-ADC-FF-FF-1: `ADC #$FF`. -/
theorem test_ar_adc_ff_ff_1 : after [0x69, 0xFF]
    ({ ready with a := 0xFF, flagC := true })
    (fun t => (t.flagN, t.cycles)) = some (true, 2) := by decide

/-- AR-SBC-00-01-1: `SBC #$01`. -/
theorem test_ar_sbc_00_01_1 : after [0xE9, 0x01]
    ({ ready with a := 0x00, flagC := true })
    (fun t => (t.a, t.flagN, t.flagC, t.cycles)) = some (0xFF, true, false, 2) := by decide

/-- AR-SBC-7F-FF-1: `SBC #$FF`. -/
theorem test_ar_sbc_7f_ff_1 : after [0xE9, 0xFF]
    ({ ready with a := 0x7F, flagC := true })
    (fun t => (t.a, t.flagN, t.flagV, t.flagC, t.cycles)) = some (0x80, true, true, false, 2) := by decide

/-- AR-CMP-00-80: `CMP #$80`. -/
theorem test_ar_cmp_00_80 : after [0xC9, 0x80]
    ({ ready with a := 0x00, flagV := true })
    (fun t => (t.flagN, t.cycles)) = some (true, 2) := by decide

/-- AR-CMP-20-20: `CMP #$20`. -/
theorem test_ar_cmp_20_20 : after [0xC9, 0x20]
    ({ ready with a := 0x20, flagV := true })
    (fun t => (t.flagZ, t.flagC, t.cycles)) = some (true, true, 2) := by decide

/-- AR-CPX: `CPX #$05`. -/
theorem test_ar_cpx : after [0xE0, 0x05]
    ({ ready with x := 0x05 })
    (fun t => (t.flagZ, t.flagC, t.cycles)) = some (true, true, 2) := by decide

/-- AR-CPY: `CPY $10`. -/
theorem test_ar_cpy : after [0xC4, 0x10]
    ({ ready with y := 0x01, mem := cells [(0x0010, 0x02)] })
    (fun t => (t.flagN, t.cycles)) = some (true, 3) := by decide

/-- AR-BIT1: `BIT $10`. -/
theorem test_ar_bit1 : after [0x24, 0x10]
    ({ ready with a := 0x01, mem := cells [(0x0010, 0xC0)] })
    (fun t => (t.flagN, t.flagV, t.flagZ, t.cycles)) = some (true, true, true, 3) := by decide

/-- AR-BIT2: `BIT $1000`. -/
theorem test_ar_bit2 : after [0x2C, 0x00, 0x10]
    ({ ready with a := 0x40, flagN := true, flagV := true, flagZ := true, mem := cells [(0x1000, 0x7F)] })
    (fun t => (t.flagN, t.flagZ, t.cycles)) = some (false, false, 4) := by decide

/-- AR-AND: `AND #$0F`. -/
theorem test_ar_and : after [0x29, 0x0F]
    ({ ready with a := 0xF0 })
    (fun t => (t.a, t.flagZ, t.cycles)) = some (0x00, true, 2) := by decide

/-- AR-ORA: `ORA #$80`. -/
theorem test_ar_ora : after [0x09, 0x80]
    ({ ready with a := 0x0F })
    (fun t => (t.a, t.flagN, t.cycles)) = some (0x8F, true, 2) := by decide

/-- AR-EOR: `EOR #$FF`. -/
theorem test_ar_eor : after [0x49, 0xFF]
    ({ ready with a := 0xFF })
    (fun t => (t.a, t.flagZ, t.cycles)) = some (0x00, true, 2) := by decide

/-- AR-INC: `INC $10`. -/
theorem test_ar_inc : after [0xE6, 0x10]
    ({ ready with flagV := true, flagC := true, mem := cells [(0x0010, 0xFF)] })
    (fun t => (t.flagZ, t.mem.read 0x0010, t.cycles)) = some (true, 0x00, 5) := by decide

/-- AR-DEC: `DEC $10`. -/
theorem test_ar_dec : after [0xC6, 0x10]
    ({ ready with mem := cells [(0x0010, 0x00)] })
    (fun t => (t.flagN, t.mem.read 0x0010, t.cycles)) = some (true, 0xFF, 5) := by decide

/-- AR-INX: `INX`. -/
theorem test_ar_inx : after [0xE8]
    ({ ready with x := 0xFF })
    (fun t => (t.x, t.flagZ, t.cycles)) = some (0x00, true, 2) := by decide

/-- AR-INY: `INY`. -/
theorem test_ar_iny : after [0xC8]
    ({ ready with y := 0x7F })
    (fun t => (t.y, t.flagN, t.cycles)) = some (0x80, true, 2) := by decide

/-- AR-DEX: `DEX`. -/
theorem test_ar_dex : after [0xCA]
    ({ ready with x := 0x01 })
    (fun t => (t.x, t.flagZ, t.cycles)) = some (0x00, true, 2) := by decide

/-- AR-DEY: `DEY`. -/
theorem test_ar_dey : after [0x88]
    ({ ready with y := 0x00 })
    (fun t => (t.y, t.flagN, t.cycles)) = some (0xFF, true, 2) := by decide

/-- SH-1: `ASL A`. -/
theorem test_sh_1 : after [0x0A]
    ({ ready with a := 0x80 })
    (fun t => (t.a, t.flagZ, t.flagC, t.cycles)) = some (0x00, true, true, 2) := by decide

/-- SH-2: `ASL $10`. -/
theorem test_sh_2 : after [0x06, 0x10]
    ({ ready with mem := cells [(0x0010, 0x41)] })
    (fun t => (t.flagN, t.mem.read 0x0010, t.cycles)) = some (true, 0x82, 5) := by decide

/-- SH-3: `LSR A`. -/
theorem test_sh_3 : after [0x4A]
    ({ ready with a := 0x01 })
    (fun t => (t.a, t.flagZ, t.flagC, t.cycles)) = some (0x00, true, true, 2) := by decide

/-- SH-4: `LSR $10`. -/
theorem test_sh_4 : after [0x46, 0x10]
    ({ ready with flagN := true, mem := cells [(0x0010, 0x80)] })
    (fun t => (t.flagN, t.mem.read 0x0010, t.cycles)) = some (false, 0x40, 5) := by decide

/-- SH-5: `ROL A`. -/
theorem test_sh_5 : after [0x2A]
    ({ ready with a := 0x80, flagC := true })
    (fun t => (t.a, t.cycles)) = some (0x01, 2) := by decide

/-- SH-6: `ROL A`. -/
theorem test_sh_6 : after [0x2A]
    ({ ready with a := 0x40 })
    (fun t => (t.a, t.flagN, t.cycles)) = some (0x80, true, 2) := by decide

/-- SH-7: `ROR A`. -/
theorem test_sh_7 : after [0x6A]
    ({ ready with a := 0x01, flagC := true })
    (fun t => (t.a, t.flagN, t.cycles)) = some (0x80, true, 2) := by decide

/-- SH-8: `ROR $0200,X`. -/
theorem test_sh_8 : after [0x7E, 0x00, 0x02]
    ({ ready with x := 0x01, mem := cells [(0x0201, 0x02)] })
    (fun t => (t.mem.read 0x0201, t.cycles)) = some (0x01, 7) := by decide

/-- ST-1: `PHA`. -/
theorem test_st_1 : after [0x48]
    ({ ready with a := 0x3C })
    (fun t => (t.sp, t.mem.read 0x01FD, t.cycles)) = some (0xFC, 0x3C, 3) := by decide

/-- ST-2: `PHP`. -/
theorem test_st_2 : after [0x08]
    ({ ready with flagN := true, flagI := true, flagC := true })
    (fun t => (t.sp, t.mem.read 0x01FD, t.cycles)) = some (0xFC, 0xB5, 3) := by decide

/-- ST-3: `PLA`. -/
theorem test_st_3 : after [0x68]
    ({ ready with sp := 0xFC, mem := cells [(0x01FD, 0x80)] })
    (fun t => (t.a, t.sp, t.flagN, t.cycles)) = some (0x80, 0xFD, true, 4) := by decide

/-- ST-4: `PLP`. -/
theorem test_st_4 : after [0x28]
    ({ ready with sp := 0xFC, mem := cells [(0x01FD, 0xFF)] })
    (fun t => (t.flagN, t.flagV, t.flagD, t.flagI, t.flagZ, t.flagC)) = some (true, true, true, true, true, true) := by decide

/-- ST-5: `PLP`. -/
theorem test_st_5 : after [0x28]
    ({ ready with sp := 0xFC, flagN := true, flagC := true, mem := cells [(0x01FD, 0x30)] })
    (fun t => (t.sp, t.flagN, t.flagC, t.cycles)) = some (0xFD, false, false, 4) := by decide

/-- ST-6: `PHA`. -/
theorem test_st_6 : after [0x48]
    ({ ready with a := 0x11, sp := 0x00 })
    (fun t => (t.sp, t.mem.read 0x0100, t.cycles)) = some (0xFF, 0x11, 3) := by decide

/-- ST-7: `PLA`. -/
theorem test_st_7 : after [0x68]
    ({ ready with sp := 0xFF, mem := cells [(0x0100, 0x00)] })
    (fun t => (t.sp, t.flagZ, t.cycles)) = some (0x00, true, 4) := by decide

/-- CT-1: `JMP $C000`. -/
theorem test_ct_1 : after [0x4C, 0x00, 0xC0]
    (ready)
    (fun t => (t.pc, t.cycles)) = some (0xC000, 3) := by decide

/-- CT-2: `JMP ($10FF)`. -/
theorem test_ct_2 : after [0x6C, 0xFF, 0x10]
    ({ ready with mem := cells [(0x1000, 0x12), (0x10FF, 0x34), (0x1100, 0x56)] })
    (fun t => (t.pc, t.cycles)) = some (0x1234, 5) := by decide

/-- CT-3: `JSR $9000`. -/
theorem test_ct_3 : after [0x20, 0x00, 0x90]
    (ready)
    (fun t => (t.sp, t.mem.read 0x01FC, t.mem.read 0x01FD, t.pc, t.cycles)) = some (0xFB, 0x02, 0x80, 0x9000, 6) := by decide

/-- CT-4: `RTS`. -/
theorem test_ct_4 : after [0x60]
    ({ ready with pc := 0x9000, sp := 0xFB, mem := cells [(0x01FC, 0x02), (0x01FD, 0x80)] })
    (fun t => (t.sp, t.pc, t.cycles)) = some (0xFD, 0x8003, 6) := by decide

/-- CT-5: `RTI`. -/
theorem test_ct_5 : after [0x40]
    ({ ready with pc := 0x9000, sp := 0xFA, mem := cells [(0x01FB, 0xE3), (0x01FC, 0x34), (0x01FD, 0x12)] })
    (fun t => (t.sp, t.flagN, t.flagV, t.flagZ, t.flagC, t.pc)) = some (0xFD, true, true, true, true, 0x1234) := by decide

/-- CT-6: `BRK`. -/
theorem test_ct_6 : after [0x00, 0xEA]
    ({ ready with flagN := true, flagD := true, mem := cells [(0xFFFE, 0x00), (0xFFFF, 0xA0)] })
    (fun t => (t.sp, t.flagI, t.mem.read 0x01FB, t.mem.read 0x01FC, t.mem.read 0x01FD, t.pc)) = some (0xFA, true, 0xB8, 0x02, 0x80, 0xA000) := by decide

/-- CT-7: `BNE +2 (not taken)`. -/
theorem test_ct_7 : after [0xD0, 0x02]
    ({ ready with flagZ := true })
    (fun t => (t.pc, t.cycles)) = some (0x8002, 2) := by decide

/-- CT-8: `BNE +2 (taken)`. -/
theorem test_ct_8 : after [0xD0, 0x02]
    (ready)
    (fun t => (t.pc, t.cycles)) = some (0x8004, 3) := by decide

/-- CT-9: `BEQ -2 (to itself)`. -/
theorem test_ct_9 : after [0xF0, 0xFE]
    ({ ready with flagZ := true })
    (fun t => (t.pc, t.cycles)) = some (0x8000, 3) := by decide

/-- CT-10: `BCC -4 across page`. -/
theorem test_ct_10 : after [0x90, 0xFC]
    ({ ready with pc := 0x80FE })
    (fun t => (t.pc, t.cycles)) = some (0x80FC, 4) := by decide

/-- CT-11: `BCS +127`. -/
theorem test_ct_11 : after [0xB0, 0x7F]
    ({ ready with pc := 0x8080, flagC := true })
    (fun t => (t.pc, t.cycles)) = some (0x8101, 4) := by decide

/-- CT-12: `BMI -128`. -/
theorem test_ct_12 : after [0x30, 0x80]
    ({ ready with flagN := true })
    (fun t => (t.pc, t.cycles)) = some (0x7F82, 4) := by decide

/-- CT-13: `BPL +0`. -/
theorem test_ct_13 : after [0x10, 0x00]
    (ready)
    (fun t => (t.pc, t.cycles)) = some (0x8002, 3) := by decide

/-- CT-14: `BVS +2 at $FFFC`. -/
theorem test_ct_14 : after [0x70, 0x02]
    ({ ready with pc := 0xFFFC, flagV := true })
    (fun t => (t.pc, t.cycles)) = some (0x0000, 4) := by decide

/-- CT-15: `BVC +5 (V=1, not taken)`. -/
theorem test_ct_15 : after [0x50, 0x05]
    ({ ready with flagV := true })
    (fun t => (t.pc, t.cycles)) = some (0x8002, 2) := by decide

/-- FL-1: `CLC`. -/
theorem test_fl_1 : after [0x18]
    ({ ready with flagC := true })
    (fun t => (t.flagC, t.cycles)) = some (false, 2) := by decide

/-- FL-2: `SEC`. -/
theorem test_fl_2 : after [0x38]
    (ready)
    (fun t => (t.flagC, t.cycles)) = some (true, 2) := by decide

/-- FL-3: `CLI`. -/
theorem test_fl_3 : after [0x58]
    ({ ready with flagI := true })
    (fun t => (t.flagI, t.cycles)) = some (false, 2) := by decide

/-- FL-4: `SEI`. -/
theorem test_fl_4 : after [0x78]
    (ready)
    (fun t => (t.flagI, t.cycles)) = some (true, 2) := by decide

/-- FL-5: `CLV`. -/
theorem test_fl_5 : after [0xB8]
    ({ ready with flagV := true })
    (fun t => (t.flagV, t.cycles)) = some (false, 2) := by decide

/-- FL-6: `CLD`. -/
theorem test_fl_6 : after [0xD8]
    ({ ready with flagD := true })
    (fun t => (t.flagD, t.cycles)) = some (false, 2) := by decide

/-- FL-7: `SED`. -/
theorem test_fl_7 : after [0xF8]
    (ready)
    (fun t => (t.flagD, t.cycles)) = some (true, 2) := by decide

/-- FL-8: `NOP`. -/
theorem test_fl_8 : after [0xEA]
    (ready)
    (fun t => (t.pc, t.cycles)) = some (0x8001, 2) := by decide

/-- UN-1: `NOP* $1C: NOP $10FF,X`. -/
theorem test_un_1 : after [0x1C, 0xFF, 0x10]
    ({ ready with x := 0x01 })
    (fun t => (t.pc, t.cycles)) = some (0x8003, 5) := by decide

/-- UN-2: `NOP* $80: NOP #$12`. -/
theorem test_un_2 : after [0x80, 0x12]
    (ready)
    (fun t => (t.pc, t.cycles)) = some (0x8002, 2) := by decide

/-- UN-3: `SLO $10`. -/
theorem test_un_3 : after [0x07, 0x10]
    ({ ready with a := 0x01, mem := cells [(0x0010, 0x81)] })
    (fun t => (t.a, t.flagC, t.mem.read 0x0010, t.cycles)) = some (0x03, true, 0x02, 5) := by decide

/-- UN-4: `RLA $10`. -/
theorem test_un_4 : after [0x27, 0x10]
    ({ ready with a := 0xFF, flagC := true, mem := cells [(0x0010, 0x40)] })
    (fun t => (t.a, t.flagN, t.flagC, t.mem.read 0x0010, t.cycles)) = some (0x81, true, false, 0x81, 5) := by decide

/-- UN-5: `SRE $10`. -/
theorem test_un_5 : after [0x47, 0x10]
    ({ ready with a := 0x01, mem := cells [(0x0010, 0x03)] })
    (fun t => (t.a, t.flagZ, t.flagC, t.mem.read 0x0010, t.cycles)) = some (0x00, true, true, 0x01, 5) := by decide

/-- UN-6: `RRA $10`. -/
theorem test_un_6 : after [0x67, 0x10]
    ({ ready with a := 0x10, mem := cells [(0x0010, 0x03)] })
    (fun t => (t.a, t.mem.read 0x0010, t.cycles)) = some (0x12, 0x01, 5) := by decide

/-- UN-7: `SAX $10`. -/
theorem test_un_7 : after [0x87, 0x10]
    ({ ready with a := 0xF0, x := 0x3C, flagN := true })
    (fun t => (t.mem.read 0x0010, t.cycles)) = some (0x30, 3) := by decide

/-- UN-8: `LAX $10`. -/
theorem test_un_8 : after [0xA7, 0x10]
    ({ ready with mem := cells [(0x0010, 0x80)] })
    (fun t => (t.a, t.x, t.flagN, t.cycles)) = some (0x80, 0x80, true, 3) := by decide

/-- UN-9: `DCP $10`. -/
theorem test_un_9 : after [0xC7, 0x10]
    ({ ready with a := 0x05, mem := cells [(0x0010, 0x06)] })
    (fun t => (t.flagZ, t.flagC, t.mem.read 0x0010, t.cycles)) = some (true, true, 0x05, 5) := by decide

/-- UN-10: `ISC $10`. -/
theorem test_un_10 : after [0xE7, 0x10]
    ({ ready with a := 0x05, flagC := true, mem := cells [(0x0010, 0x04)] })
    (fun t => (t.a, t.flagZ, t.mem.read 0x0010, t.cycles)) = some (0x00, true, 0x05, 5) := by decide

/-- UN-11: `ANC #$80`. -/
theorem test_un_11 : after [0x0B, 0x80]
    ({ ready with a := 0xFF })
    (fun t => (t.a, t.flagN, t.flagC, t.cycles)) = some (0x80, true, true, 2) := by decide

/-- UN-12: `ALR #$03`. -/
theorem test_un_12 : after [0x4B, 0x03]
    ({ ready with a := 0xFF })
    (fun t => (t.a, t.flagC, t.cycles)) = some (0x01, true, 2) := by decide

/-- UN-13: `ARR #$FF`. -/
theorem test_un_13 : after [0x6B, 0xFF]
    ({ ready with a := 0xC0, flagC := true })
    (fun t => (t.a, t.flagN, t.cycles)) = some (0xE0, true, 2) := by decide

/-- UN-14: `ARR #$FF`. -/
theorem test_un_14 : after [0x6B, 0xFF]
    ({ ready with a := 0x40 })
    (fun t => (t.a, t.flagV, t.cycles)) = some (0x20, true, 2) := by decide

/-- UN-15: `SBX #$02`. -/
theorem test_un_15 : after [0xCB, 0x02]
    ({ ready with a := 0x0F, x := 0xF3 })
    (fun t => (t.x, t.flagC, t.cycles)) = some (0x01, true, 2) := by decide

/-- UN-16: `SBX #$10`. -/
theorem test_un_16 : after [0xCB, 0x10]
    ({ ready with a := 0x0F, x := 0xFF })
    (fun t => (t.flagN, t.cycles)) = some (true, 2) := by decide

/-- UN-17: `USBC #$01 ($EB)`. -/
theorem test_un_17 : after [0xEB, 0x01]
    ({ ready with a := 0x10, flagC := true })
    (fun t => (t.a, t.cycles)) = some (0x0F, 2) := by decide

/-- UN-18: `ANE #$FF, P_ANE_MAGIC=$EE`. -/
theorem test_un_18 : after [0x8B, 0xFF]
    ({ ready with a := 0x00, x := 0xFF })
    (fun t => (t.a, t.flagN, t.cycles)) = some (0xEE, true, 2) := by decide

/-- UN-19: `LXA #$0F, P_LXA_MAGIC=$FF`. -/
theorem test_un_19 : after [0xAB, 0x0F]
    ({ ready with a := 0x00, params := { ready.params with lxaMagic := 0xFF } })
    (fun t => (t.a, t.x, t.cycles)) = some (0x0F, 0x0F, 2) := by decide

/-- UN-20: `SHX $0200,Y`. -/
theorem test_un_20 : after [0x9E, 0x00, 0x02]
    ({ ready with x := 0xFF, y := 0x01 })
    (fun t => (t.mem.read 0x0201, t.cycles)) = some (0x03, 5) := by decide

/-- UN-21: `SHY $0200,X`. -/
theorem test_un_21 : after [0x9C, 0x00, 0x02]
    ({ ready with x := 0x01, y := 0x07 })
    (fun t => (t.mem.read 0x0201, t.cycles)) = some (0x03, 5) := by decide

/-- UN-22: `SHA $0200,Y`. -/
theorem test_un_22 : after [0x9F, 0x00, 0x02]
    ({ ready with a := 0xFF, x := 0xFF, y := 0x05 })
    (fun t => (t.mem.read 0x0205, t.cycles)) = some (0x03, 5) := by decide

/-- UN-23: `TAS $0200,Y`. -/
theorem test_un_23 : after [0x9B, 0x00, 0x02]
    ({ ready with a := 0xF3, x := 0x3F, y := 0x00 })
    (fun t => (t.sp, t.mem.read 0x0200, t.cycles)) = some (0x33, 0x03, 5) := by decide

/-- UN-24: `SHX $02FF,Y cross, Formula`. -/
theorem test_un_24 : after [0x9E, 0xFF, 0x02]
    ({ ready with x := 0xF1, y := 0x01, params := { ready.params with shCross := .formula } })
    (fun t => (t.mem.read 0x0100, t.cycles)) = some (0x01, 5) := by decide

/-- UN-25: `SHX $02FF,Y cross, Refuse`. -/
theorem test_un_25 : refusal [0x9E, 0xFF, 0x02]
    ({ ready with x := 0xF1, y := 0x01 }) =
    some (.unstableOpcode 0x9E
      [⟨.read, 0x8000, 0x9E⟩, ⟨.read, 0x8001, 0xFF⟩, ⟨.read, 0x8002, 0x02⟩, ⟨.read, 0x0200, 0x00⟩] none) := by decide

/-- R280: TAS has written S when its store is refused. -/
theorem test_tas_refused_writes_s : refusal [0x9B, 0xFF, 0x02] { ready with a := 0xF3, x := 0x3F, y := 0x01 } =
    some (.unstableOpcode 0x9B
      [⟨.read, 0x8000, 0x9B⟩, ⟨.read, 0x8001, 0xFF⟩, ⟨.read, 0x8002, 0x02⟩, ⟨.read, 0x0200, 0x00⟩] (some 0x33)) := by
  decide

/-- UN-26: `LAS $0200,Y`. -/
theorem test_un_26 : after [0xBB, 0x00, 0x02]
    ({ ready with y := 0x00, sp := 0xF0, mem := cells [(0x0200, 0x3F)] })
    (fun t => (t.a, t.x, t.sp, t.cycles)) = some (0x30, 0x30, 0x30, 4) := by decide

/-- UN-27: `JAM $02`. -/
theorem test_un_27 : after [0x02]
    (ready)
    (fun t => (t.pc, t.halted, t.cycles)) = some (0x8001, true, 1) := by decide

/-- UN-28: `SLO $10 outside P_UNOFFICIAL`. -/
theorem test_un_28 :
    let s := load [0x07, 0x10]
      { ready with a := 0x01, mem := cells [(0x0010, 0x81)], params := { ready.params with unofficial := [] } }
    step s = .refused (.unimplementedOpcode 0x07 { s with pc := 0x8001, trace := [⟨.read, 0x8000, 0x07⟩] }) := by
  rfl

/-- UN-29: `LAX ($10),Y`. -/
theorem test_un_29 : after [0xB3, 0x10]
    ({ ready with y := 0x01, mem := cells [(0x0010, 0xFF), (0x0011, 0x02), (0x0300, 0x00)] })
    (fun t => (t.flagZ, t.cycles)) = some (true, 6) := by decide

/-- UN-30: `DCP $1000,Y`. -/
theorem test_un_30 : after [0xDB, 0x00, 0x10]
    ({ ready with a := 0x10, y := 0x01, mem := cells [(0x1001, 0x11)] })
    (fun t => (t.flagZ, t.flagC, t.mem.read 0x1001, t.cycles)) = some (true, true, 0x10, 7) := by decide

theorem test_un_30_trace : after [0xDB, 0x00, 0x10]
    ({ ready with a := 0x10, y := 0x01, mem := cells [(0x1001, 0x11)] }) State.trace =
    some [⟨.read, 0x8000, 0xDB⟩, ⟨.read, 0x8001, 0x00⟩, ⟨.read, 0x8002, 0x10⟩, ⟨.read, 0x1001, 0x11⟩, ⟨.read, 0x1001, 0x11⟩, ⟨.write, 0x1001, 0x11⟩, ⟨.write, 0x1001, 0x10⟩] := by decide

/-! ### Interrupts, halt and reset -/

/-- The vectors and the handler of the interrupt rows of spec/95_test_vectors.md. -/
def vectored : State :=
  { ready with mem := cells [(0x9000, 0xEA), (0xFFFB, 0x90), (0xFFFD, 0x80), (0xFFFF, 0xA0)] }

/-- IN-1: NMI service. -/
theorem test_in_1_trace : after [0xEA] { vectored with nmiPending := true, flagN := true, flagC := true } State.trace =
    some [⟨.read, 0x8000, 0xEA⟩, ⟨.read, 0x8000, 0xEA⟩, ⟨.write, 0x01FD, 0x80⟩, ⟨.write, 0x01FC, 0x00⟩,
      ⟨.write, 0x01FB, 0xA1⟩, ⟨.read, 0xFFFA, 0x00⟩, ⟨.read, 0xFFFB, 0x90⟩] := by decide

theorem test_in_1 : after [0xEA] { vectored with nmiPending := true, flagN := true, flagC := true }
    (fun t => (t.sp, t.pc, t.flagI, t.nmiPending, t.cycles)) = some (0xFA, 0x9000, true, false, 7) := by decide

/-- IN-2: a masked IRQ. -/
theorem test_in_2 : after [0xEA] { vectored with irqLine := true, flagI := true }
    (fun t => (t.sp, t.pc, t.cycles)) = some (0xFD, 0x8001, 2) := by decide

/-- IN-3: IRQ service. -/
theorem test_in_3 : after [0xEA] { vectored with irqLine := true, flagD := true }
    (fun t => (t.sp, t.pc, t.flagI, t.flagD, t.mem.read 0x01FB, t.cycles)) =
      some (0xFA, 0xA000, true, true, 0x28, 7) := by decide

/-- IN-4, step 1: NMI before IRQ. -/
theorem test_in_4 : after [0xEA] { vectored with irqLine := true, nmiPending := true }
    (fun t => (t.pc, t.mem.read 0x01FB)) = some (0x9000, 0x20) := by decide

/-- IN-5, step 2: the state that CLI left. -/
theorem test_in_5 : after [0xEA] { vectored with pc := 0x8001, irqLine := true }
    (fun t => (t.pc, t.mem.read 0x01FD, t.mem.read 0x01FC, t.mem.read 0x01FB)) =
      some (0xA000, 0x80, 0x01, 0x20) := by decide

/-- IN-7: NMI is not masked. -/
theorem test_in_7 : after [0xEA] { vectored with nmiPending := true, flagI := true }
    (fun t => (t.pc, t.mem.read 0x01FB)) = some (0x9000, 0x24) := by decide

/-- IN-9, steps 2 and 3: a halted core. -/
theorem test_in_9 : after [0x02] { vectored with halted := true, nmiPending := true, pc := 0x8001 }
    (fun t => (t.pc, t.halted, t.nmiPending, t.cycles, t.trace)) = some (0x8001, true, true, 1, []) := by decide

/-- RS-1: the state before. -/
def beforeReset : State :=
  { vectored with
    a := 0x55, x := 0x66, y := 0x77, sp := 0x10, pc := 0x1234, flagN := true, flagD := true, flagC := true,
    halted := true, nmiPending := true }

theorem test_rs_1 :
    (beforeReset.resetSequence.sp, beforeReset.resetSequence.pc, beforeReset.resetSequence.flagI,
      beforeReset.resetSequence.halted, beforeReset.resetSequence.nmiPending, beforeReset.resetSequence.cycles) =
      (0xFD, 0x8000, true, false, false, 7) := by decide

theorem test_rs_1_kept :
    (beforeReset.resetSequence.a, beforeReset.resetSequence.x, beforeReset.resetSequence.y,
      beforeReset.resetSequence.flagN, beforeReset.resetSequence.flagD, beforeReset.resetSequence.trace) =
      (0x55, 0x66, 0x77, true, true, [⟨.read, 0xFFFC, 0x00⟩, ⟨.read, 0xFFFD, 0x80⟩]) := by decide

/-! ### The bus -/

/-- With `P_BUS_TRACE = Architectural` the dummy accesses of AM-13 are not made (R119). -/
theorem test_architectural : after [0xFE, 0x00, 0x02]
    { ready with x := 0x05, mem := cells [(0x0205, 0x7F)], params := { ready.params with busTrace := .architectural } }
    (fun t => (t.cycles, t.trace)) =
      some (7, [⟨.read, 0x8000, 0xFE⟩, ⟨.read, 0x8001, 0x00⟩, ⟨.read, 0x8002, 0x02⟩, ⟨.read, 0x0205, 0x7F⟩,
        ⟨.write, 0x0205, 0x80⟩]) := by decide

/-- A store to a device window is traced and leaves plain memory alone (R51, U15). -/
theorem test_device_write : after [0x8D, 0x06, 0x20] { ready with a := 0x3F, devices := [⟨0x2000, 0x3FFF⟩] }
    (fun t => (t.mem.read 0x2006, t.trace.getLast?)) = some (0x00, some ⟨.write, 0x2006, 0x3F⟩) := by decide

/-- A load from a device window takes the bus's free byte and uses up one draw (R51). -/
theorem test_device_read : after [0xAD, 0x07, 0x20] { ready with devices := [⟨0x2000, 0x3FFF⟩] } State.draws = some 1 := by
  decide

/-- Writing the blank byte takes a cell out of the list. -/
theorem test_memory_canonical : Memory.write (cells [(0x0010, 0x42), (0x0200, 0x01)]) 0x0010 0x00 = [(0x0200, 0x01)] := by
  decide

/-! ### Witnesses: for every statement with hypotheses, values that meet them -/

theorem test_witness_StepRunsDecodedInstruction :
    (ready.halted, ready.nmiPending, ready.irqLine) = (false, false, false) ∧
      decode (load [0xA9, 0x12] ready).fetchWindow = .ok (.ldaImm 0x12, [0x00]) := by decide

theorem test_witness_StepRunsDecodedInstruction_masked :
    let s := load [0xA9, 0x12] { ready with irqLine := true, flagI := true, pc := 0xFFFF }
    (s.halted, s.nmiPending, s.flagI) = (false, false, true) ∧ decode s.fetchWindow = .ok (.ldaImm 0x12, [0x00]) := by
  decide

theorem test_witness_FetchWindowIsMemoryAtPc :
    let s := { ready with pc := 0xFFFF, devices := [⟨0x2000, 0x3FFF⟩] }
    s.isDevice s.pc = false ∧ s.isDevice (s.pc + 1) = false ∧ s.isDevice (s.pc + 2) = false := by decide

theorem test_witness_StepChecksInOrder :
    { ready with halted := true }.halted = true ∧
      (let s := { ready with nmiPending := true }
       s.halted = false ∧ s.nmiPending = true) ∧
      (let s := { ready with irqLine := true }
       s.halted = false ∧ s.nmiPending = false ∧ s.irqLine = true ∧ s.flagI = false) ∧
      ready.halted = false ∧ ready.nmiPending = false ∧ ready.irqLine = false := by decide

theorem test_witness_RefusedExactlyWhen :
    Instr.wellFormed { ready.params with unofficial := [] } (.sloZp 0x10) = false ∧
      (let s := { ready with y := 0x01 }
       Instr.wellFormed s.params (.shxAbsY 0xFF 0x02) = true ∧ crosses (.shxAbsY 0xFF 0x02) s = true ∧
        s.params.shCross = .refuse) := by decide

theorem test_witness_WellFormedInstructionsComplete :
    let s := { ready with y := 0x01, params := { ready.params with shCross := .formula } }
    Instr.wellFormed s.params (.shxAbsY 0xFF 0x02) = true ∧ crosses (.shxAbsY 0xFF 0x02) s = true ∧
      s.params.shCross = .formula := by decide

theorem test_witness_PcAdvancesByLength :
    isNext (exec (.ldaAbsX 0xFF 0xFF) { ready with pc := 0xFFFE }) = true ∧ Instr.mnemonic (.ldaAbsX 0xFF 0xFF) = .lda := by
  decide

theorem test_witness_BlankFlagsStay :
    isNext (exec (.sbcImm 0x01) ready) = true ∧ Flag.d ∉ flagWriters (Instr.mnemonic (.sbcImm 0x01)) := by decide

/-- A next state after a halted step, an NMI service, an IRQ service, an instruction and a JAM: the hypothesis of
`StepKeepsPlatform`, `OnlyJamHalts`, `TraceLengthIsCycleCount`, `TraceReplaysMemory` and `StepKeepsInvariant`. -/
theorem test_witness_step_answers_next :
    isNext (step { ready with halted := true }) = true ∧ isNext (step { ready with nmiPending := true }) = true ∧
      isNext (step { ready with irqLine := true }) = true ∧ isNext (run [0xEE, 0xFF, 0xFF] ready) = true ∧
      isNext (run [0x02] ready) = true ∧ ready.params.busTrace = .full := by decide

theorem test_witness_OnlyJamHalts : after [0x02] ready (fun t => (ready.halted, t.halted)) = some (false, true) := by decide

theorem test_witness_ArchitecturalTraceOnlyDropsDummies :
    ready.devices = [] ∧ Memory.wf ready.mem = true ∧ ready.params.busTrace = .full ∧
      isNext (exec (.incAbsX 0xFF 0xFF) ready) = true ∧
      (let s := { ready with devices := [⟨0x2000, 0x3FFF⟩], params := { ready.params with busTrace := .architectural } }
       s.params.busTrace = .architectural ∧ isNext (exec (.incAbsX 0xFF 0x2F) s) = true) := by decide

/-- The two refused steps of `TraceReplaysMemory`. -/
theorem test_witness_step_refuses :
    (refusal [0x9E, 0xFF, 0x02] { ready with x := 0xF1, y := 0x01 }).isSome = true ∧
      (refusal [0x07, 0x10] { ready with params := { ready.params with unofficial := [] } }).isSome = true := by decide

theorem test_witness_EffectiveAddressOfEachMode :
    ready.devices = [] ∧ placeOf (.ldaZp 0xFF) = some (.zp 0xFF) ∧ placeOf (.ldaZpX 0xFF) = some (.zpX 0xFF) ∧
      placeOf (.ldxZpY 0xFF) = some (.zpY 0xFF) ∧ placeOf (.ldaAbs 0xFF 0xFF) = some (.abs 0xFF 0xFF) ∧
      placeOf (.ldaAbsX 0xFF 0xFF) = some (.absX 0xFF 0xFF) ∧ placeOf (.staAbsY 0xFF 0xFF) = some (.absY 0xFF 0xFF) ∧
      placeOf (.ldaIndX 0xFF) = some (.indX 0xFF) ∧ placeOf (.ldaIndY 0xFF) = some (.indY 0xFF) ∧
      (Instr.row (.ldaIndY 0xFF)).access = .read := by decide

theorem test_witness_CyclesByModeAndClass :
    let s := { ready with x := 0x01 }
    isNext (exec (.ldaAbsX 0xFF 0x10) s) = true ∧ crosses (.ldaAbsX 0xFF 0x10) s = true ∧
      crosses (.ldaAbsX 0xFE 0x10) s = false ∧ (Instr.row (.ldaAbsX 0xFF 0x10)).access ≠ .none ∧
      isNext (exec (.staAbsX 0xFF 0x10) s) = true ∧ (Instr.row (.staAbsX 0xFF 0x10)).access ≠ .none := by decide

theorem test_witness_StepKeepsInvariant : Inv { ready with mem := cells [(0xFFFF, 0xFF)] } :=
  ⟨by decide, by decide, by decide, by decide⟩

theorem test_witness_LoadsReadOperand :
    Instr.mnemonic (.ldaImm 0x00) = .lda ∧ Instr.mnemonic (.ldxAbsY 0xFF 0xFF) = .ldx ∧
      Instr.mnemonic (.ldyAbsX 0xFF 0xFF) = .ldy := by decide

theorem test_witness_StoresWriteRegister :
    Instr.mnemonic (.staIndY 0xFF) = .sta ∧ Instr.mnemonic (.stxZpY 0xFF) = .stx ∧ Instr.mnemonic (.styAbs 0xFF 0xFF) = .sty := by
  decide

theorem test_witness_arithmetic :
    Instr.mnemonic (.adcImm 0xFF) = .adc ∧ Instr.mnemonic (.sbcImm 0xFF) = .sbc ∧
      Instr.mnemonic (.usbcImm 0xFF) = .usbc ∧ ready.admits (Instr.opcode (.usbcImm 0xFF)) = true ∧
      Instr.mnemonic (.andImm 0x00) = .and ∧ Instr.mnemonic (.oraImm 0x00) = .ora ∧ Instr.mnemonic (.eorImm 0x00) = .eor ∧
      Instr.mnemonic (.cmpImm 0x80) = .cmp ∧ Instr.mnemonic (.cpxImm 0x80) = .cpx ∧ Instr.mnemonic (.cpyImm 0x80) = .cpy ∧
      Instr.mnemonic (.bitZp 0x00) = .bit ∧ Instr.mnemonic (.incZp 0xFF) = .inc ∧ Instr.mnemonic (.decZp 0x00) = .dec := by
  decide

theorem test_witness_DecimalFlagHasNoEffect :
    isNext (exec (.adcImm 0xFF) ready) = true ∧ isNext (exec (.sbcImm 0xFF) ready) = true ∧
      isNext (exec (.rraZp 0xFF) ready) = true ∧ isNext (exec (.iscZp 0xFF) ready) = true ∧
      isNext (exec (.usbcImm 0xFF) ready) = true ∧ isNext (exec (.arrImm 0xFF) ready) = true := by decide

theorem test_witness_shifts :
    (ShiftsTo .asl true 0x80 0x00 true ∧ (Instr.row .aslAcc).mode = .acc ∧ (Instr.row (.aslZp 0xFF)).mode ≠ .acc) ∧
      (ShiftsTo .lsr true 0x01 0x00 true ∧ (Instr.row .lsrAcc).mode = .acc ∧ (Instr.row (.lsrZp 0xFF)).mode ≠ .acc) ∧
      (ShiftsTo .rol true 0x80 0x01 true ∧ (Instr.row .rolAcc).mode = .acc ∧ (Instr.row (.rolZp 0xFF)).mode ≠ .acc) ∧
      (ShiftsTo .ror true 0x01 0x80 true ∧ (Instr.row .rorAcc).mode = .acc ∧ (Instr.row (.rorZp 0xFF)).mode ≠ .acc) := by
  unfold ShiftsTo; decide

theorem test_witness_RtsUndoesJsr :
    let s := { ready with sp := 0x00 }
    Memory.wf s.mem = true ∧ s.isDevice (word 0x01 s.sp) = false ∧ s.isDevice (word 0x01 (s.sp - 1)) = false ∧
      isNext (exec (.jsrAbs 0x00 0x90) s) = true := by decide

theorem test_witness_RtiUndoesInterruptService :
    let s := { ready with sp := 0x01 }
    nmiVector = 0xFFFA ∧ irqVector = 0xFFFE ∧ Memory.wf s.mem = true ∧ s.isDevice (word 0x01 s.sp) = false ∧
      s.isDevice (word 0x01 (s.sp - 1)) = false ∧ s.isDevice (word 0x01 (s.sp - 2)) = false ∧
      isNext (exec (.brk 0xEA) s) = true := by decide

theorem test_witness_NopStarOnlyReads :
    Instr.mnemonic .nop1A = .nopStar ∧ ready.admits 0x1A = true ∧ Instr.mnemonic (.nop1CAbsX 0xFF 0x10) = .nopStar ∧
      ready.admits 0x1C = true ∧ placeOf (.nop1CAbsX 0xFF 0x10) = some (.absX 0xFF 0x10) := by decide

theorem test_witness_CombinedReadModifyWrite :
    (Instr.mnemonic (.sloZp 0xFF) = .slo ∧ ready.admits (Instr.opcode (.sloZp 0xFF)) = true ∧ ShiftsTo .asl false 0x00 0x00 false) ∧
      (Instr.mnemonic (.rlaZp 0xFF) = .rla ∧ ready.admits (Instr.opcode (.rlaZp 0xFF)) = true ∧ ShiftsTo .rol false 0x00 0x00 false) ∧
      (Instr.mnemonic (.sreZp 0xFF) = .sre ∧ ready.admits (Instr.opcode (.sreZp 0xFF)) = true ∧ ShiftsTo .lsr false 0x00 0x00 false) ∧
      (Instr.mnemonic (.rraZp 0xFF) = .rra ∧ ready.admits (Instr.opcode (.rraZp 0xFF)) = true ∧ ShiftsTo .ror false 0x00 0x00 false) ∧
      rmwValue (.sloZp 0xFF) ready = 0x00 ∧
      (Instr.mnemonic (.dcpZp 0xFF) = .dcp ∧ ready.admits (Instr.opcode (.dcpZp 0xFF)) = true) ∧
      (Instr.mnemonic (.iscZp 0xFF) = .isc ∧ ready.admits (Instr.opcode (.iscZp 0xFF)) = true) := by
  unfold ShiftsTo; decide

theorem test_witness_other_unofficial :
    (Instr.mnemonic (.saxZp 0xFF) = .sax ∧ ready.admits (Instr.opcode (.saxZp 0xFF)) = true) ∧
      (Instr.mnemonic (.laxZp 0xFF) = .lax ∧ ready.admits (Instr.opcode (.laxZp 0xFF)) = true) ∧
      (Instr.mnemonic (.lasAbsY 0xFF 0xFF) = .las ∧ ready.admits (Instr.opcode (.lasAbsY 0xFF 0xFF)) = true) ∧
      (Instr.mnemonic (.anc2BImm 0x80) = .anc ∧ ready.admits (Instr.opcode (.anc2BImm 0x80)) = true) ∧
      (Instr.mnemonic (.alrImm 0x01) = .alr ∧ ready.admits (Instr.opcode (.alrImm 0x01)) = true) ∧
      (Instr.mnemonic (.arrImm 0x80) = .arr ∧ ready.admits (Instr.opcode (.arrImm 0x80)) = true) ∧
      (Instr.mnemonic (.sbxImm 0x00) = .sbx ∧ ready.admits (Instr.opcode (.sbxImm 0x00)) = true) ∧
      (Instr.mnemonic (.aneImm 0xFF) = .ane ∧ ready.admits (Instr.opcode (.aneImm 0xFF)) = true) ∧
      (Instr.mnemonic (.lxaImm 0xFF) = .lxa ∧ ready.admits (Instr.opcode (.lxaImm 0xFF)) = true) := by decide

theorem test_witness_HighByteAndStores :
    let s := { ready with x := 0x01, y := 0x01 }
    (Instr.mnemonic (.shaIndY 0xFF) = .sha ∧ s.admits 0x93 = true ∧ Instr.mnemonic (.shxAbsY 0xFF 0xFF) = .shx ∧
        s.admits 0x9E = true ∧ Instr.mnemonic (.shyAbsX 0xFF 0xFF) = .shy ∧ s.admits 0x9C = true ∧
        Instr.mnemonic (.tasAbsY 0xFF 0xFF) = .tas ∧ s.admits 0x9B = true) ∧
      (crosses (.shxAbsY 0xFE 0xFF) s = false ∧ crosses (.tasAbsY 0xFE 0xFF) s = false) ∧
      (crosses (.shxAbsY 0xFF 0xFF) s = true ∧ crosses (.tasAbsY 0xFF 0xFF) s = true) ∧
      crosses (.shaIndY 0xFF) { s with mem := cells [(0x00FF, 0xFF)] } = true ∧ s.params.shCross = .refuse ∧
      Config.params.shCross = .formula := by decide

theorem test_witness_JamHalts : Instr.mnemonic .jamF2 = .jam ∧ ready.admits (Instr.opcode .jamF2) = true := by decide

theorem test_witness_interrupts :
    (let s := { ready with nmiPending := true, irqLine := true, flagI := true }
     s.halted = false ∧ s.nmiPending = true ∧ s.irqLine = true ∧ isNext (step s) = true) ∧
      (let s := { ready with irqLine := true }
       s.halted = false ∧ s.nmiPending = false ∧ s.irqLine = true ∧ s.flagI = false) ∧
      { ready with halted := true }.halted = true := by decide

theorem test_witness_MaskChangesActAtOnce :
    after [0x58] { ready with flagI := true } State.flagI = some false ∧
      after [0x28] { ready with flagI := true } State.flagI = some false ∧
      after [0x40] { ready with flagI := true } State.flagI = some false ∧ after [0x78] ready State.flagI = some true ∧
      (let s := { ready with irqLine := true, flagI := true }
       s.halted = false ∧ s.nmiPending = false ∧ s.irqLine = true ∧ isNext (exec .cli s) = true ∧
        isNext (exec .plp s) = true ∧ isNext (exec .rti s) = true ∧ isNext (exec .sei s) = true) := by decide

end Sys2Proof.Tests
end

section
/-! Completion of a well-formed instruction (R10, R87): every shape answers a next state, the high-byte AND stores
where they do not cross a page or `P_SH_CROSS = Formula`. -/

namespace Sys2Proof.Machine

/-- The high-byte AND stores are SHA, SHX, SHY and TAS (R284). -/
theorem mnemonic_mem_of_unstable {mn : Mnemonic} {newS : State → Option Byte} {v : State → Byte}
    (h : shapeOf mn = .unstable newS v) : mn ∈ [.sha, .shx, .shy, .tas] := by
  cases mn <;> cases h <;> decide

/-- A branch completes, taken or not (R215). -/
theorem branchInstr_completes (op : Byte) (base : Nat) (cond : State → Bool) (n : Byte) (s : State) :
    ∃ t, branchInstr op base cond n s = .next t := by
  unfold branchInstr
  dsimp only
  split
  · exact ⟨_, rfl⟩
  · exact ⟨_, rfl⟩

/-- A high-byte AND store completes unless it crosses a page under `P_SH_CROSS = Refuse` (R284). -/
theorem exec_unstable_completes {i : Instr} {s : State} {newS : State → Option Byte} {v : State → Byte}
    (h : shapeOf i.mnemonic = .unstable newS v) (hw : i.wellFormed s.params = true)
    (hc : crosses i s = true → s.params.shCross = .formula) : ∃ t, exec i s = .next t := by
  obtain ⟨d, he⟩ := exec_unstable h hw
  rw [he]
  cases hx : crosses i s with
  | false => exact ⟨_, rfl⟩
  | true =>
    rw [hc hx]
    exact ⟨_, rfl⟩

/-- A well-formed instruction of any other shape completes, whatever the state (R10). -/
theorem exec_completes_of_stable {i : Instr} {s : State} (hw : i.wellFormed s.params = true)
    (hs : ∀ newS v, shapeOf i.mnemonic ≠ .unstable newS v) : ∃ t, exec i s = .next t := by
  cases h : shapeOf i.mnemonic with
  | read f =>
    obtain ⟨_, _, he, -⟩ := exec_read h hw
    exact ⟨_, he⟩
  | store v =>
    obtain ⟨_, _, he⟩ := exec_store h hw
    exact ⟨_, he⟩
  | rmw f =>
    by_cases hm : i.row.mode = .acc
    · obtain ⟨_, _, he⟩ := exec_acc h hm hw
      exact ⟨_, he⟩
    · obtain ⟨_, _, _, he, -⟩ := exec_rmw h hm hw
      exact ⟨_, he⟩
  | implied f =>
    obtain ⟨_, _, he⟩ := exec_implied h hw
    exact ⟨_, he⟩
  | unstable newS v => exact absurd h (hs newS v)
  | branch cond =>
    rw [exec_eq_shape, gate_wellFormed hw, h]
    exact branchInstr_completes ..
  | jump =>
    rw [exec_eq_shape, gate_wellFormed hw, h]
    unfold runShape
    dsimp only
    split
    · exact ⟨_, rfl⟩
    · exact ⟨_, rfl⟩
  | jam | call | brk =>
    rw [exec_eq_shape, gate_wellFormed hw, h]
    exact ⟨_, rfl⟩

/-- Settles O9, by the shape of the instruction: only a high-byte AND store has an outcome that is no next state, and
the hypothesis on `P_SH_CROSS` excludes it. -/
theorem wellFormedInstructionsComplete : Obligations.WellFormedInstructionsComplete := by
  intro i s hw hc
  by_cases hs : ∃ newS v, shapeOf i.mnemonic = .unstable newS v
  · obtain ⟨newS, v, h⟩ := hs
    exact exec_unstable_completes h hw (hc (mnemonic_mem_of_unstable h))
  · exact exec_completes_of_stable hw fun newS v h => hs ⟨newS, v, h⟩

end Sys2Proof.Machine
end

section
/-! The status byte, the fetch and the reset state (R24, R27, R28, R39). -/

namespace Sys2Proof.Machine

/-- Packing what was unpacked from a byte gives the byte with U = 1 and B as asked (R27, R28). -/
theorem packP_unpackP (b : Bool) (v : Byte) (s : State) :
    (s.unpackP v).packP b = (v &&& 0xCF) ||| 0x20 ||| (if b then 0x10 else 0x00) := by
  obtain ⟨h7, h6, h5, h4, h3, h2, h1, h0⟩ := packP_bits b (s.unpackP v)
  apply BitVec.eq_of_getLsbD_eq
  intro k hk
  interval_cases k <;> simp only [*] <;> cases b <;> simp

/-- Settles O34: the bits of the pushed byte, then the two round trips. -/
theorem statusByteLayout : Obligations.StatusByteLayout := fun b s v =>
  ⟨packP_bits b s, unpackP_packP b s s, packP_unpackP b v s⟩

/-- Settles O5: a fetch changes no window and no byte, so each of the three reads its plain byte. -/
theorem fetchWindowIsMemoryAtPc : Obligations.FetchWindowIsMemoryAtPc := by
  intro s h0 h1 h2
  have next_two : s.pc + 1 + 1 = s.pc + 2 := BitVec.add_assoc s.pc 1 1
  simp only [State.fetchWindow, State.fetchByte_fst, State.fetchByte_snd, State.fetched_pc, State.fetched_isDevice,
    State.fetched_mem, next_two, State.peek_plain, h0, h1, h2]

/-- Settles O60: by evaluation of the reset sequence at the one power-on state. -/
theorem resetStateValues : Obligations.ResetStateValues :=
  ⟨rfl, rfl, rfl, rfl, rfl, rfl⟩

end Sys2Proof.Machine
end

section
/-! The frame of an executed instruction: whatever its shape, `exec` keeps the platform, the NMI latch and the flags
its row of R40 leaves blank, sets `halted` only for JAM, and moves PC past the instruction unless it transfers
control. -/

namespace Sys2Proof.Machine

/-! ### The platform and the flags through each operation -/

/-- `t` has the latches and the platform of `s`, and its flags but for those in `fs`. -/
structure KeepsPlatform (fs : List Flag) (s t : State) : Prop where
  flags : ∀ f, f ∉ fs → t.flag f = s.flag f
  nmiPending : t.nmiPending = s.nmiPending
  halted : t.halted = s.halted
  irqLine : t.irqLine = s.irqLine
  devices : t.devices = s.devices
  params : t.params = s.params

namespace KeepsPlatform

variable {fs : List Flag} {s t u : State}

theorem refl (fs : List Flag) (s : State) : KeepsPlatform fs s s := ⟨fun _ _ => rfl, rfl, rfl, rfl, rfl, rfl⟩

/-- A change of none of these fields. -/
theorem quiet (h : KeepsPlatform fs s u) (hf : t.flag = u.flag) (hn : t.nmiPending = u.nmiPending)
    (hh : t.halted = u.halted) (hi : t.irqLine = u.irqLine) (hd : t.devices = u.devices) (hp : t.params = u.params) :
    KeepsPlatform fs s t :=
  ⟨fun f hfs => (congrFun hf f).trans (h.flags f hfs), hn.trans h.nmiPending, hh.trans h.halted, hi.trans h.irqLine,
    hd.trans h.devices, hp.trans h.params⟩

/-- The effect of an instruction on registers and flags. -/
theorem inert (h : KeepsPlatform fs s u) (hi : Inert fs u t) : KeepsPlatform fs s t :=
  ⟨fun f hf => (hi.flags f hf).trans (h.flags f hf), hi.nmiPending.trans h.nmiPending, hi.halted.trans h.halted,
    hi.irqLine.trans h.irqLine, hi.devices.trans h.devices, hi.params.trans h.params⟩

theorem logRead (h : KeepsPlatform fs s u) (a : Addr) (v : Byte) : KeepsPlatform fs s (u.logRead a v) :=
  h.quiet rfl rfl rfl rfl rfl rfl

theorem busWrite (h : KeepsPlatform fs s u) (a : Addr) (v : Byte) : KeepsPlatform fs s (u.busWrite a v) :=
  h.quiet rfl rfl rfl rfl rfl rfl

theorem dummyRead (h : KeepsPlatform fs s u) (a : Addr) : KeepsPlatform fs s (u.dummyRead a) := by
  unfold State.dummyRead; split
  · exact h.logRead a _
  · exact h

theorem goto (h : KeepsPlatform fs s u) (a : Addr) : KeepsPlatform fs s (u.goto a) := h.quiet rfl rfl rfl rfl rfl rfl

theorem fetched (h : KeepsPlatform fs s u) (v : Byte) : KeepsPlatform fs s (u.fetched v) :=
  h.quiet rfl rfl rfl rfl rfl rfl

theorem addCycles (h : KeepsPlatform fs s u) (n : Nat) : KeepsPlatform fs s (u.addCycles n) :=
  h.quiet rfl rfl rfl rfl rfl rfl

theorem push (h : KeepsPlatform fs s u) (v : Byte) : KeepsPlatform fs s (u.push v) := h.quiet rfl rfl rfl rfl rfl rfl

theorem pull (h : KeepsPlatform fs s u) : KeepsPlatform fs s u.pull.2 := h.quiet rfl rfl rfl rfl rfl rfl

theorem pushPc (h : KeepsPlatform fs s u) : KeepsPlatform fs s u.pushPc := (h.push _).push _

theorem pullPc (h : KeepsPlatform fs s u) : KeepsPlatform fs s u.pullPc := h.pull.pull.goto _

theorem loadA (h : KeepsPlatform fs s u) (hn : .n ∈ fs) (hz : .z ∈ fs) (v : Byte) : KeepsPlatform fs s (u.loadA v) :=
  ⟨fun f hf => by
    rw [← h.flags f hf]
    cases f <;> first | rfl | contradiction,
  h.nmiPending, h.halted, h.irqLine, h.devices, h.params⟩

/-- A pull of the status byte may write every flag. -/
theorem unpackP (h : KeepsPlatform fs s u) (hfs : ∀ f, f ∈ fs) (v : Byte) : KeepsPlatform fs s (u.unpackP v) :=
  ⟨fun f hf => absurd (hfs f) hf, h.nmiPending, h.halted, h.irqLine, h.devices, h.params⟩

theorem enterHandler (h : KeepsPlatform fs s u) (hi : .i ∈ fs) (b : Bool) (vec : Addr) :
    KeepsPlatform fs s (u.enterHandler b vec) :=
  ⟨fun f hf => by
    rw [← h.flags f hf]
    cases f <;> first | contradiction | simp [State.flag],
  by simpa using h.nmiPending, by simpa using h.halted, by simpa using h.irqLine, by simpa using h.devices,
  by simpa using h.params⟩

theorem beginInstr (h : KeepsPlatform fs s u) (op : Byte) (base : Nat) : KeepsPlatform fs s (u.beginInstr op base) :=
  h.quiet rfl rfl rfl rfl rfl rfl

theorem ran (h : KeepsPlatform fs s u) (i : Instr) (tr : List BusEntry) (d : Nat) : KeepsPlatform fs s (u.ran i tr d) :=
  h.quiet rfl rfl rfl rfl rfl rfl

theorem setMem (h : KeepsPlatform fs s u) (m : Memory) : KeepsPlatform fs s { u with mem := m } :=
  h.quiet rfl rfl rfl rfl rfl rfl

theorem setA (h : KeepsPlatform fs s u) (v : Byte) : KeepsPlatform fs s (u.setA v) := h.quiet rfl rfl rfl rfl rfl rfl

theorem setS (h : KeepsPlatform fs s u) (v : Option Byte) : KeepsPlatform fs s (u.setS v) :=
  h.quiet rfl rfl rfl rfl rfl rfl

end KeepsPlatform

/-! ### Every shape -/

/-- The mnemonics that transfer control (R210 to R223). -/
def transfers : List Mnemonic :=
  [.jmp, .jsr, .rts, .rti, .brk, .bcc, .bcs, .beq, .bne, .bmi, .bpl, .bvc, .bvs]

/-- The shapes whose instructions all transfer control; RTS and RTI, which do too, are of the implied shape. -/
def Shape.leavesLine : Shape → Bool
  | .branch _ | .jump | .call | .brk => true
  | _ => false

theorem mem_transfers {mn : Mnemonic} (h : (shapeOf mn).leavesLine = true) : mn ∈ transfers := by
  cases mn <;> cases h <;> decide

/-- BRK writes I (R40, R214). -/
theorem flagI_mem_of_brk {mn : Mnemonic} (h : shapeOf mn = .brk) : .i ∈ flagWriters mn := by
  cases mn <;> cases h
  decide

/-- What an instruction with the mnemonic `mn` does to the platform, the latches and the flags (R40), and that PC is `pc`
unless it transfers control (R24). -/
structure Frame (mn : Mnemonic) (pc : Addr) (s t : State) : Prop where
  keeps : KeepsPlatform (flagWriters mn) s t
  inLine : mn ∉ transfers → t.pc = pc

section Shapes

variable {i : Instr} {s t : State}

/-- Only an instruction that is admitted answers a next state (R260). -/
theorem wellFormed_of_next (h : exec i s = .next t) : i.wellFormed s.params = true := by
  cases hw : i.wellFormed s.params with
  | true => rfl
  | false => rw [exec_eq_shape, gate_refused hw] at h; cases h

/-- What such an instruction answers is its shape's answer. -/
theorem runShape_of_next (h : exec i s = .next t) : runShape (shapeOf i.mnemonic) i s = .next t := by
  have hw := wellFormed_of_next h
  rwa [exec_eq_shape, gate_wellFormed hw] at h

/-- An instruction answers one next state. -/
theorem next_eq {r : Result} {u : State} (he : r = .next u) (h : r = .next t) : u = t :=
  Host.Outcome.next.inj (he.symm.trans h)

/-- Class read (R113). -/
theorem read_frame {f : Byte → State → State} (hs : shapeOf i.mnemonic = .read f) (h : exec i s = .next t) :
    Frame i.mnemonic (nextPc i s) s t := by
  obtain ⟨tr, d, he, -⟩ := exec_read hs (wellFormed_of_next h)
  obtain rfl := next_eq he h
  have effect := read_inert hs (operandValue i s) (s.ran i tr d)
  exact ⟨((KeepsPlatform.refl _ s).ran i tr d).inert effect, fun _ => effect.pc⟩

/-- Class write (R114). -/
theorem store_frame {v : State → Byte} (hs : shapeOf i.mnemonic = .store v) (h : exec i s = .next t) :
    Frame i.mnemonic (nextPc i s) s t := by
  obtain ⟨tr, d, he⟩ := exec_store hs (wellFormed_of_next h)
  obtain rfl := next_eq he h
  exact ⟨((KeepsPlatform.refl _ s).ran i tr d).busWrite _ _, fun _ => rfl⟩

/-- Class read-modify-write, in accumulator mode (R102) and in memory (R115). -/
theorem rmw_frame {f : Byte → State → Byte × State} (hs : shapeOf i.mnemonic = .rmw f) (h : exec i s = .next t) :
    Frame i.mnemonic (nextPc i s) s t := by
  have hw := wellFormed_of_next h
  by_cases hm : i.row.mode = .acc
  · obtain ⟨tr, d, he⟩ := exec_acc hs hm hw
    obtain rfl := next_eq he h
    have effect := rmw_inert hs s.a (s.ran i tr d)
    exact ⟨(((KeepsPlatform.refl _ s).ran i tr d).inert effect).setA _, fun _ => effect.pc⟩
  · obtain ⟨tr, d, m, he, -⟩ := exec_rmw hs hm hw
    obtain rfl := next_eq he h
    have effect := rmw_inert hs (rmwValue i s) { s.ran i tr d with mem := m }
    exact ⟨((((KeepsPlatform.refl _ s).ran i tr d).setMem m).inert effect).busWrite _ _, fun _ => effect.pc⟩

/-- The high-byte AND stores, wherever they store (R284). -/
theorem unstable_frame {newS : State → Option Byte} {v : State → Byte} (hs : shapeOf i.mnemonic = .unstable newS v)
    (h : exec i s = .next t) : Frame i.mnemonic (nextPc i s) s t := by
  obtain ⟨d, he⟩ := exec_unstable hs (wellFormed_of_next h)
  have stored (sp a v) : Frame i.mnemonic (nextPc i s) s (((s.ran i (addressTrace i s) d).setS sp).busWrite a v) :=
    ⟨(((KeepsPlatform.refl _ s).ran i _ d).setS sp).busWrite a v, fun _ => rfl⟩
  rw [he] at h
  dsimp only at h
  split at h
  · split at h
    · cases h
    · cases h
      exact stored _ _ _
  · cases h
    exact stored _ _ _

/-- A stack instruction's effect (R200 to R203, R212, R213). -/
theorem stack_frame {mn : Mnemonic} {f : State → State} (hs : shapeOf mn = .implied f) (hst : usesStack mn = true)
    {u : State} (hu : KeepsPlatform (flagWriters mn) s u) : Frame mn u.pc s (f u) := by
  have stackRead := hu.dummyRead u.stackAddr
  cases mn <;> cases hst <;> cases hs
  case pha | php => exact ⟨hu.push _, fun _ => rfl⟩
  case pla => exact ⟨stackRead.pull.loadA (by decide) (by decide) _, fun _ => by simp [effPla]⟩
  case plp => exact ⟨stackRead.pull.unpackP (by intro f; cases f <;> decide) _, fun _ => by simp [effPlp]⟩
  case rts => exact ⟨(stackRead.pullPc.dummyRead _).goto _, fun hn => absurd (by decide) hn⟩
  case rti =>
    exact ⟨(stackRead.pull.unpackP (by intro f; cases f <;> decide) _).pullPc, fun hn => absurd (by decide) hn⟩

/-- Implied mode (R101). -/
theorem implied_frame {f : State → State} (hs : shapeOf i.mnemonic = .implied f) (h : exec i s = .next t) :
    Frame i.mnemonic (nextPc i s) s t := by
  obtain ⟨tr, d, he⟩ := exec_implied hs (wellFormed_of_next h)
  obtain rfl := next_eq he h
  have past := (KeepsPlatform.refl (flagWriters i.mnemonic) s).ran i tr d
  cases hst : usesStack i.mnemonic with
  | true => exact stack_frame hs hst past
  | false =>
    have effect := implied_inert hs hst (s.ran i tr d)
    exact ⟨past.inert effect, fun _ => effect.pc⟩

/-- A conditional branch, taken or not (R215). -/
theorem branchInstr_keepsPlatform {fs : List Flag} {op n : Byte} {base : Nat} {cond : State → Bool}
    (h : branchInstr op base cond n s = .next t) : KeepsPlatform fs s t := by
  have fetches := ((KeepsPlatform.refl fs s).beginInstr op base).fetched n
  unfold branchInstr at h
  dsimp only at h
  split at h
  · cases h
    refine KeepsPlatform.goto ?_ _
    split
    · exact ((fetches.dummyRead _).dummyRead _).addCycles 2
    · exact (fetches.dummyRead _).addCycles 1
  · cases h
    exact fetches

/-- The shapes that leave the line (R210, R211, R214, R215). -/
theorem transfer_frame (hl : (shapeOf i.mnemonic).leavesLine = true) (h : exec i s = .next t) :
    Frame i.mnemonic (nextPc i s) s t := by
  refine ⟨?_, fun hn => absurd (mem_transfers hl) hn⟩
  have fetch := (KeepsPlatform.refl (flagWriters i.mnemonic) s).beginInstr i.opcode i.row.cycles
  have hr := runShape_of_next h
  cases hs : shapeOf i.mnemonic <;> rw [hs] at hl hr <;> cases hl
  case branch cond => exact branchInstr_keepsPlatform hr
  case jump =>
    simp only [runShape] at hr
    split at hr <;> cases hr
    · exact ((((fetch.fetched _).fetched _).logRead _ _).logRead _ _).goto _
    · exact ((fetch.fetched _).fetched _).goto _
  case call =>
    cases hr
    exact (((fetch.fetched _).dummyRead _).pushPc.logRead _ _).goto _
  case brk =>
    cases hr
    exact ((fetch.dummyRead _).goto _).enterHandler (flagI_mem_of_brk hs) _ _

/-- The row of a JAM (R282). -/
theorem jam_row (hs : shapeOf i.mnemonic = .jam) : i.mnemonic = .jam ∧ i.row.bytes = 1 := by
  cases i <;> cases hs <;> exact ⟨rfl, rfl⟩

/-- JAM sets `halted` after its fetch (R282). -/
theorem jam_frame (hs : shapeOf i.mnemonic = .jam) (h : exec i s = .next t) :
    Frame i.mnemonic (nextPc i s) { s with halted := true } t := by
  have hr := runShape_of_next h
  rw [hs] at hr
  cases hr
  exact ⟨⟨fun _ _ => rfl, rfl, rfl, rfl, rfl, rfl⟩, fun _ => by rw [nextPc, (jam_row hs).2]; rfl⟩

/-- Every instruction that answers a next state (R24, R37, R40). -/
theorem exec_frame (h : exec i s = .next t) :
    Frame i.mnemonic (nextPc i s) { s with halted := s.halted || i.mnemonic == .jam } t := by
  by_cases hm : i.mnemonic = .jam
  · rw [hm, beq_self_eq_true, Bool.or_true, ← hm]
    exact jam_frame (by rw [hm]; rfl) h
  · rw [beq_false_of_ne hm, Bool.or_false]
    cases hs : shapeOf i.mnemonic with
    | read f => exact read_frame hs h
    | store v => exact store_frame hs h
    | rmw f => exact rmw_frame hs h
    | implied f => exact implied_frame hs h
    | unstable newS v => exact unstable_frame hs h
    | branch | jump | call | brk => exact transfer_frame (by rw [hs]; rfl) h
    | jam => exact absurd (jam_row hs).1 hm

end Shapes

theorem encode_length (i : Instr) : (encode i).length = i.row.bytes := by cases i <;> rfl

/-- Settles O10: the frame's PC, an encoding being as long as its row says. -/
theorem pcAdvancesByLength : Obligations.PcAdvancesByLength := by
  intro i s t h hm
  rw [encode_length]
  exact (exec_frame h).inLine hm

/-- Settles O11: the frame's flags. -/
theorem blankFlagsStay : Obligations.BlankFlagsStay := fun _ _ _ h => (exec_frame h).keeps.flags

end Sys2Proof.Machine
end

section
/-! The frame of a step: a halted cycle, an interrupt service or an instruction (R302). -/

namespace Sys2Proof.Machine

/-- The next states of a step, by the order of R302. -/
theorem step_cases {s t : State} (h : step s = .next t) :
    (s.halted = true ∧ t = s.haltedStep) ∨
      (s.halted = false ∧ s.nmiPending = true ∧ t = s.nmiService) ∨
      (s.halted = false ∧ s.nmiPending = false ∧ s.irqLine = true ∧ s.flagI = false ∧ t = s.irqService) ∨
      (s.halted = false ∧ s.nmiPending = false ∧ (s.irqLine = false ∨ s.flagI = true) ∧
        ∃ i rest, decode s.fetchWindow = .ok (i, rest) ∧ exec i s = .next t) := by
  unfold step at h
  split at h
  · next hh =>
    cases h
    exact .inl ⟨hh, rfl⟩
  next hh =>
  rw [Bool.not_eq_true] at hh
  split at h
  · next hn =>
    cases h
    exact .inr (.inl ⟨hh, hn, rfl⟩)
  next hn =>
  rw [Bool.not_eq_true] at hn
  split at h
  · next hi =>
    cases h
    obtain ⟨hline, hmask⟩ : s.irqLine = true ∧ s.flagI = false := by simpa using hi
    exact .inr (.inr (.inl ⟨hh, hn, hline, hmask, rfl⟩))
  next hi =>
  have masked : s.irqLine = false ∨ s.flagI = true := by simpa [Decidable.imp_iff_not_or] using hi
  split at h
  · next i rest hd => exact .inr (.inr (.inr ⟨hh, hn, masked, i, rest, hd, h⟩))
  · cases h

/-- Settles O12: each of the four kinds of step keeps the platform, and an NMI service alone clears the latch. -/
theorem stepKeepsPlatform : Obligations.StepKeepsPlatform := by
  intro s t h
  obtain ⟨-, rfl⟩ | ⟨hh, hn, rfl⟩ | ⟨-, -, -, -, rfl⟩ | ⟨-, -, -, i, rest, -, he⟩ := step_cases h
  · exact ⟨rfl, rfl, rfl, .inl rfl⟩
  · simp [State.nmiService, hh, hn]
  · simp [State.irqService]
  · have keeps := (exec_frame he).keeps
    exact ⟨keeps.irqLine, keeps.devices, keeps.params, .inl keeps.nmiPending⟩

/-- Settles O13: a halted cycle and an interrupt service leave `halted`, and an instruction sets it only if it is
JAM. -/
theorem onlyJamHalts : Obligations.OnlyJamHalts := by
  intro s t h
  obtain ⟨hh, rfl⟩ | ⟨hh, -, rfl⟩ | ⟨hh, -, -, -, rfl⟩ | ⟨hh, -, -, i, rest, hd, he⟩ := step_cases h
  · simp [State.haltedStep, hh]
  · simp [State.nmiService, hh]
  · simp [State.irqService, hh]
  · refine ⟨fun hs => absurd hs (by simp [hh]), fun _ ht => ⟨i, rest, hd, ?_⟩⟩
    have hj := (exec_frame he).keeps.halted
    simpa [hh, ht] using hj

end Sys2Proof.Machine
end

section
/-! The fetch of a decoded instruction (R24, R66, R80): its opcode and operand bytes are those that the bus answers at PC
and after it. -/

namespace Sys2Proof

/-- What the decoder answers is an instruction whose bytes it was given (R80). -/
theorem decode_bytes {bytes rest : List Byte} {i : Instr} (h : decode bytes = .ok (i, rest)) :
    bytes = encode i ++ rest := by
  cases bytes with
  | nil => cases h
  | cons op bs =>
    obtain ⟨f, hf, ⟨hb, he⟩ | ⟨hb, he⟩ | ⟨hb, he⟩⟩ := instrOf_cell op
    · simp only [decode, hb, hf, Except.map] at h
      cases h
      simp [he]
    · cases bs <;> simp only [decode, hb, hf, Except.map] at h <;> cases h
      simp [he]
    · rcases bs with _ | ⟨lo, _ | ⟨hi, bs⟩⟩ <;> simp only [decode, hb, hf, Except.map] at h <;> cases h
      simp [he]

/-- An instruction has as many bytes as its mode asks for (R82), or one more (BRK, R83). -/
theorem modeBytes_le_bytes (i : Instr) : Machine.modeBytes i.row.mode ≤ i.row.bytes := by
  have table : ∀ op : Byte, Machine.modeBytes (rowOf op).mode ≤ (rowOf op).bytes := by decide
  rw [row_eq]
  exact table i.opcode

end Sys2Proof

namespace Sys2Proof.Machine

/-- The bytes of `i` are what the bus answers to the fetches at PC. -/
structure Fetched (i : Instr) (s : State) : Prop where
  opcode : i.opcode = s.peek s.pc
  first : 2 ≤ i.row.bytes → i.operandBytes.1 = (begun i s).peek (begun i s).pc
  second : 3 ≤ i.row.bytes →
    i.operandBytes.2 = ((begun i s).fetched i.operandBytes.1).peek ((begun i s).fetched i.operandBytes.1).pc

theorem fetched_of_decode {i : Instr} {s : State} {rest : List Byte} (h : decode s.fetchWindow = .ok (i, rest)) :
    Fetched i s := by
  have hbytes := decode_bytes h
  have hlen := encode_length i
  rcases he : encode i with _ | ⟨op, _ | ⟨n, _ | ⟨m, _ | ⟨k, l⟩⟩⟩⟩ <;> rw [he] at hbytes hlen
  · have hhead := decode_head h
    exact ⟨(Option.some.inj hhead).symm, fun hb => by simp [← hlen] at hb, fun hb => by simp [← hlen] at hb⟩
  all_goals simp [State.fetchWindow] at hbytes hlen
  · exact ⟨by simp [Instr.opcode, he, hbytes], fun hb => by omega, fun hb => by omega⟩
  · obtain ⟨hop, hn, -⟩ := hbytes
    refine ⟨by simp [Instr.opcode, he, hop], fun _ => ?_, fun hb => by omega⟩
    simp only [Instr.operandBytes, he]
    exact hn.symm
  · obtain ⟨hop, hn, hm, -⟩ := hbytes
    refine ⟨by simp [Instr.opcode, he, hop], fun _ => ?_, fun _ => ?_⟩ <;> simp only [Instr.operandBytes, he]
    · exact hn.symm
    · exact hm.symm

namespace Fetched

variable {i : Instr} {s : State}

/-- The operand of a memory mode is the bytes after the opcode (R84). -/
theorem place (h : Fetched i s) {p : Place} (hp : placeOf i = some p) : p.atPc (begun i s) := by
  have hb := modeBytes_le_bytes i
  unfold placeOf at hp
  cases hm : i.row.mode <;> rw [hm] at hp hb <;> cases hp
  case zp | zpX | zpY | indX | indY => exact h.first hb
  case abs | absX | absY => exact ⟨h.first (Nat.le_of_succ_le hb), h.second hb⟩

end Fetched

end Sys2Proof.Machine
end

section
/-! The trace explains memory (R63): every shape performs its accesses through the bus, so that memory stays what a
replay of the trace makes of it. -/

namespace Sys2Proof.Machine

/-- A branch has an operand byte (R215). -/
theorem branch_bytes {i : Instr} {cond : State → Bool} (h : shapeOf i.mnemonic = .branch cond) : i.row.bytes = 2 := by
  cases i <;> cases h <;> rfl

/-- JMP and JSR have two (R210, R211). -/
theorem jump_bytes {i : Instr} (h : shapeOf i.mnemonic = .jump ∨ shapeOf i.mnemonic = .call) : i.row.bytes = 3 := by
  cases i <;> obtain h | h := h <;> cases h <;> rfl

/-- An effect on registers and flags performs no access. -/
theorem Replays.inert {fs : List Flag} {s u t : State} (h : Replays s u) (hi : Inert fs u t) : Replays s t :=
  h.quiet hi.devices hi.mem hi.trace

/-- A stack instruction's effect (R200 to R203, R212, R213). -/
theorem Replays.stack {mn : Mnemonic} {f : State → State} (hs : shapeOf mn = .implied f) (hst : usesStack mn = true)
    {s u : State} (h : Replays s u) : Replays s (f u) := by
  have stackRead := h.dummyRead u.stackAddr
  cases mn <;> cases hst <;> cases hs
  case pha | php => exact h.push _
  case pla | plp => exact stackRead.pull.quiet rfl rfl rfl
  case rts => exact (stackRead.pullPc.dummyRead _).goto _
  case rti => exact stackRead.leaveHandler

namespace Fetched

variable {i : Instr} {s t : State}

/-- The opcode fetch (R100). -/
theorem replays_begun (h : Fetched i s) : Replays s (begun i s) := Replays.beginInstr _ h.opcode

/-- The address cycles of a memory operand (R100). -/
theorem replays_address (h : Fetched i s) (cls : Access) {p : Place} (hp : placeOf i = some p) :
    Replays s (address cls p (begun i s)).st := h.replays_begun.address cls (h.place hp)

/-- The read of `M` (R103, R113). -/
theorem replays_readSource (h : Fetched i s) {src : Source} (hsrc : sourceOf i = some src) :
    Replays s (readSource src (begun i s)).2 := by
  unfold sourceOf at hsrc
  split at hsrc
  · next hm =>
    cases hsrc
    have hb := modeBytes_le_bytes i
    rw [hm] at hb
    exact h.replays_begun.fetched (h.first hb)
  · obtain ⟨p, hp, rfl⟩ := Option.map_eq_some_iff.mp hsrc
    exact (h.replays_address .read hp).read _

/-- A branch, taken or not (R215). -/
theorem replays_branch (h : Fetched i s) {cond : State → Bool} (hs : shapeOf i.mnemonic = .branch cond)
    (hr : branchInstr i.opcode i.row.cycles cond i.operandBytes.1 s = .next t) : Replays s t := by
  have fetches := h.replays_begun.fetched (h.first (branch_bytes hs).ge)
  unfold branchInstr at hr
  dsimp only at hr
  split at hr
  · cases hr
    refine Replays.goto ?_ _
    split
    · exact ((fetches.dummyRead _).dummyRead _).quiet rfl rfl rfl
    · exact (fetches.dummyRead _).quiet rfl rfl rfl
  · cases hr
    exact fetches

/-- A high-byte AND store, wherever it stores (R284). -/
theorem replays_unstable (h : Fetched i s) {p : Place} (hp : placeOf i = some p) {newS : State → Option Byte}
    {v : State → Byte} (hr : unstableStore i.opcode i.row.cycles p newS v s = .next t) : Replays s t := by
  have stored (sp a v) := ((h.replays_address .write hp).inert (setS_inert sp _)).write a v
  unfold unstableStore at hr
  dsimp only at hr
  split at hr
  · split at hr <;> cases hr
    exact stored _ _ _
  · cases hr
    exact stored _ _ _

/-- Every instruction that answers a next state. -/
theorem replays_exec (h : Fetched i s) (he : exec i s = .next t) : Replays s t := by
  have start := h.replays_begun
  have hr := runShape_of_next he
  cases hs : shapeOf i.mnemonic <;> rw [hs] at hr <;> simp only [runShape] at hr
  case read f =>
    split at hr <;> cases hr
    · next hsrc => exact (h.replays_readSource hsrc).inert (read_inert hs _ _)
    · exact start.dummyRead _
  case store v =>
    split at hr <;> cases hr
    next hp => exact (h.replays_address .write hp).write _ _
  case rmw f =>
    split at hr <;> cases hr
    · next hp =>
      exact ((((h.replays_address .rmw hp).read _).dummyWrite _ _).inert (rmw_inert hs _ _)).write _ _
    · exact ((start.dummyRead _).inert (rmw_inert hs _ _)).quiet rfl rfl rfl
  case implied f =>
    cases hr
    cases hst : usesStack i.mnemonic with
    | true => exact (start.dummyRead _).stack hs hst
    | false => exact (start.dummyRead _).inert (implied_inert hs hst _)
  case branch cond => exact h.replays_branch hs hr
  case unstable newS v =>
    split at hr
    · next hp => exact h.replays_unstable hp hr
    · cases hr
  case jam =>
    cases hr
    exact start.quiet rfl rfl rfl
  case jump =>
    have hb := jump_bytes (.inl hs)
    have fetches := (start.fetched (h.first (by omega))).fetched (h.second hb.ge)
    split at hr <;> cases hr
    · exact ((fetches.read _).read _).goto _
    · exact fetches.goto _
  case call =>
    have hb := jump_bytes (.inr hs)
    cases hr
    exact (((start.fetched (h.first (by omega))).dummyRead _).pushPc.read _).goto _
  case brk =>
    cases hr
    exact ((start.dummyRead _).goto _).enterHandler _ _

/-- The address cycles alone, which is all that a refused high-byte AND store performs (R284): they leave memory as it
was. -/
theorem replay_addressTrace (h : Fetched i s) : replay s s.mem (addressTrace i s) = some s.mem := by
  unfold addressTrace targetOf
  cases hp : placeOf i with
  | none => rfl
  | some p => simpa [begun] using (h.replays_address i.row.access hp).replayed

end Fetched

/-- An interrupt service (R305), from a state `u` in which a latch may have been cleared. -/
theorem interruptService_replays (vec : Addr) {s u : State} (hd : u.devices = s.devices) (hm : u.mem = s.mem) :
    Replays s (u.interruptService vec) := by
  have start : Replays s (u.beginStep 7) := ⟨hd, congrArg some hm.symm⟩
  exact ((start.dummyRead _).dummyRead _).enterHandler false vec

/-- The two refusals of an instruction (R260, R284). -/
theorem exec_refused_cases {i : Instr} {s : State} {r : Refusal} (h : exec i s = .refused r) :
    r = .unimplementedOpcode i.opcode (s.fetchedOnly i.opcode) ∨
      ∃ sp, r = .unstableOpcode i.opcode (addressTrace i s) sp := by
  cases hw : i.wellFormed s.params with
  | false =>
    rw [exec_eq_shape, gate_refused hw] at h
    cases h
    exact .inl rfl
  | true =>
    by_cases hs : ∃ newS v, shapeOf i.mnemonic = .unstable newS v
    · obtain ⟨newS, v, hs⟩ := hs
      obtain ⟨d, he⟩ := exec_unstable hs hw
      rw [he] at h
      dsimp only at h
      split at h
      · split at h <;> cases h
        exact .inr ⟨_, rfl⟩
      · cases h
    · obtain ⟨t, ht⟩ := exec_completes_of_stable hw fun newS v h => hs ⟨newS, v, h⟩
      rw [ht] at h
      cases h

/-- Only an instruction is refused: a halted cycle and an interrupt service answer a next state (R302). -/
theorem step_refused {s : State} {r : Refusal} (h : step s = .refused r) :
    ∃ i rest, decode s.fetchWindow = .ok (i, rest) ∧ exec i s = .refused r := by
  unfold step at h
  repeat' split at h
  case h_1 i rest hd => exact ⟨i, rest, hd, h⟩
  all_goals cases h

/-- Memory after a step is what a replay of its trace makes of memory before it. -/
theorem step_replays {s t : State} (h : step s = .next t) : Replays s t := by
  obtain ⟨-, rfl⟩ | ⟨-, -, rfl⟩ | ⟨-, -, -, -, rfl⟩ | ⟨-, -, -, i, rest, hd, he⟩ := step_cases h
  · exact ⟨rfl, rfl⟩
  · exact interruptService_replays nmiVector rfl rfl
  · exact interruptService_replays irqVector rfl rfl
  · exact (fetched_of_decode hd).replays_exec he

/-- Settles O15: the accesses of a step replay on memory, whichever of R302's four kinds it is; a refused one has made
its opcode fetch or its address cycles, which only read. -/
theorem traceReplaysMemory : Obligations.TraceReplaysMemory := by
  refine fun s => ⟨fun t h => (step_replays h).replayed, fun r h => ?_⟩
  obtain ⟨i, rest, hd, he⟩ := step_refused h
  have hf := fetched_of_decode hd
  obtain rfl | ⟨sp, rfl⟩ := exec_refused_cases he
  · have start : OnlyReads { s with trace := [] } := by simp [OnlyReads]
    have fetch : Replays s (s.fetchedOnly i.opcode) :=
      Replays.fetched (s := s) (u := { s with trace := [] }) ⟨rfl, rfl⟩ hf.opcode
    exact ⟨start.fetched i.opcode, fetch.replayed⟩
  · exact ⟨addressTrace_onlyReads i s, hf.replay_addressTrace⟩

end Sys2Proof.Machine
end

section
/-! The counts of a step (R116 to R119): an instruction that answers a next state takes one cycle for every access that
`architecturalAccesses` counts and one for every dummy access. -/

namespace Sys2Proof.Machine

/-! ### The counts through each operation -/

/-- So far in a step under the parameters `p`: the cycle count `c`, and a trace of `n` accesses that are always performed
and `d` dummy accesses, which `P_BUS_TRACE = Architectural` drops (R9, R119). -/
structure Tally (p : Params) (c n d : Nat) (u : State) : Prop where
  params : u.params = p
  cycles : u.cycles = c
  length : u.trace.length = n + d * dummyCount p

namespace Tally

variable {p : Params} {c n d : Nat} {u t : State}

/-- A change of none of the three fields. -/
theorem quiet (h : Tally p c n d u) (hp : t.params = u.params) (hc : t.cycles = u.cycles) (ht : t.trace = u.trace) :
    Tally p c n d t := ⟨hp.trans h.params, hc.trans h.cycles, ht ▸ h.length⟩

/-- `k` more accesses and `e` more dummy accesses. -/
theorem more (h : Tally p c n d u) {k e : Nat} (hp : t.params = u.params) (hc : t.cycles = u.cycles)
    (ht : t.trace.length = u.trace.length + (k + e * dummyCount u.params)) : Tally p c (n + k) (d + e) t := by
  refine ⟨hp.trans h.params, hc.trans h.cycles, ?_⟩
  rw [ht, h.length, h.params]
  ring

theorem inert {fs : List Flag} (h : Tally p c n d u) (hi : Inert fs u t) : Tally p c n d t :=
  h.quiet hi.params hi.cycles hi.trace

theorem goto (h : Tally p c n d u) (a : Addr) : Tally p c n d (u.goto a) := h.quiet rfl rfl rfl

theorem addCycles (h : Tally p c n d u) (k : Nat) : Tally p (c + k) n d (u.addCycles k) :=
  ⟨h.params, by simp [h.cycles], h.length⟩

theorem read (h : Tally p c n d u) (a : Addr) (v : Byte) : Tally p c (n + 1) d (u.logRead a v) :=
  h.more (e := 0) rfl rfl (by simp)

theorem fetched (h : Tally p c n d u) (v : Byte) : Tally p c (n + 1) d (u.fetched v) :=
  (h.read u.pc v).quiet rfl rfl rfl

theorem write (h : Tally p c n d u) (a : Addr) (v : Byte) : Tally p c (n + 1) d (u.busWrite a v) :=
  h.more (e := 0) rfl rfl (by simp)

theorem dummyRead (h : Tally p c n d u) (a : Addr) : Tally p c n (d + 1) (u.dummyRead a) :=
  h.more (k := 0) (by simp) (by simp) (by simp [dummyRead_length])

theorem dummyWrite (h : Tally p c n d u) (a : Addr) (v : Byte) : Tally p c n (d + 1) (u.dummyWrite a v) :=
  h.more (k := 0) (by simp) (by simp) (by simp [dummyWrite_length])

theorem push (h : Tally p c n d u) (v : Byte) : Tally p c (n + 1) d (u.push v) :=
  (h.write u.stackAddr v).quiet rfl rfl rfl

theorem pull (h : Tally p c n d u) : Tally p c (n + 1) d u.pull.2 :=
  h.more (e := 0) rfl rfl (by simp [pull_length])

theorem pushPc (h : Tally p c n d u) : Tally p c (n + 2) d u.pushPc := (h.push _).push _

theorem pullPc (h : Tally p c n d u) : Tally p c (n + 2) d u.pullPc := h.pull.pull.goto _

theorem enterHandler (h : Tally p c n d u) (b : Bool) (vec : Addr) : Tally p c (n + 5) d (u.enterHandler b vec) :=
  h.more (e := 0) (by simp) (by simp) (by simp [enterHandler_length])

theorem leaveHandler (h : Tally p c n d u) : Tally p c (n + 3) d u.leaveHandler :=
  (h.pull.quiet (t := u.pull.2.unpackP u.pull.1) rfl rfl rfl).pullPc

/-- The address cycles of a memory operand (R100). -/
theorem address (h : Tally p c n d u) (cls : Access) (pl : Place) :
    ∃ x : Bool, Tally p (c + ((cls == .read && pl.pageSensitive) && x).toNat) (n + pl.reads) (d + pl.dummies cls x)
      (Machine.address cls pl u).st := by
  refine ⟨(Machine.address cls pl u).crossed, by simp [h.params], ?_, ?_⟩
  · rw [address_cycles, h.cycles, Bool.toNat, Bool.cond_eq_ite]
  · rw [address_length, h.length, h.params]
    ring

end Tally

/-- The beginning of a step (R10). -/
theorem beginStep_tally (c : Nat) (s : State) : Tally s.params c 0 0 (s.beginStep c) := ⟨rfl, rfl, by simp⟩

/-- The opcode fetch (R100). -/
theorem begun_tally (i : Instr) (s : State) : Tally s.params i.row.cycles 1 0 (begun i s) :=
  (beginStep_tally i.row.cycles s).fetched i.opcode

/-! ### What an instruction counts -/

/-- The cycles an instruction may take over its base count: a branch two (R215), another instruction the page-crossing
penalty of its row (R116). -/
def extraCycles (i : Instr) : Nat := if i.row.mode = .rel then 2 else i.row.penalty.toNat

/-- The outputs of an executed instruction: its cycles are its base count and at most `extraCycles` more, its accesses
those that R119 leaves and, for every cycle over them, one dummy access. -/
structure Counts (i : Instr) (s t : State) : Prop where
  cyclesLow : i.row.cycles ≤ t.cycles
  cyclesHigh : t.cycles ≤ i.row.cycles + extraCycles i
  tally : ∃ d, Tally s.params (architecturalAccesses i + d) (architecturalAccesses i) d t

/-! ### The table's facts about accesses and cycles -/

/-- No instruction takes more than 8 cycles (R117, R215). -/
theorem cycles_bounds (i : Instr) : 1 ≤ i.row.cycles ∧ i.row.cycles + extraCycles i ≤ 8 := by
  have table : ∀ op : Byte, 1 ≤ (rowOf op).cycles ∧
      (rowOf op).cycles + (if (rowOf op).mode = .rel then 2 else (rowOf op).penalty.toNat) ≤ 8 := by decide
  unfold extraCycles
  rw [row_eq]
  exact table i.opcode

/-- The accesses and the cycles of an instruction with a memory operand (R113 to R117): its opcode fetch, its address
cycles, with a cycle for a crossing `x` where the row carries the penalty, and the final accesses of its class. -/
theorem place_cost {i : Instr} {p : Place} (h : placeOf i = some p) (ha : i.row.access ≠ .none) :
    architecturalAccesses i = 1 + p.reads + (if i.row.access = .rmw then 2 else 1) ∧
      ∀ x, i.row.cycles + (i.row.penalty && x).toNat =
        architecturalAccesses i + (p.dummies i.row.access x + if i.row.access = .rmw then 1 else 0) := by
  cases i <;> cases h <;> first | exact ⟨rfl, fun x => by cases x <;> rfl⟩ | exact absurd rfl ha

/-- An immediate operand is the fetched byte (R103). -/
theorem imm_cost {i : Instr} {n : Byte} (h : sourceOf i = some (.imm n)) :
    architecturalAccesses i = 2 ∧ i.row.cycles = 2 := by
  cases i <;> cases h <;> exact ⟨rfl, rfl⟩

/-- The stack instructions are of the implied shape. -/
theorem usesStack_of_not_implied {mn : Mnemonic} (h : ∀ f, shapeOf mn ≠ .implied f) : usesStack mn = false := by
  cases mn <;> first | rfl | exact absurd rfl (h _)

/-- In implied and accumulator mode the opcode is fetched and the next byte read for nothing (R101, R102). -/
theorem oneByte_cost {i : Instr} (hb : i.row.bytes = 1) (hj : shapeOf i.mnemonic ≠ .jam)
    (hst : usesStack i.mnemonic = false) : architecturalAccesses i = 1 ∧ i.row.cycles = 2 := by
  cases i <;> first | cases hb; done | cases hst; done | exact absurd rfl hj | exact ⟨rfl, rfl⟩

/-- A stack instruction in implied mode: what its effect makes of the opcode fetch and the dummy read of the next byte
(R200 to R203, R212, R213). -/
theorem stack_cost {i : Instr} {f : State → State} (hs : shapeOf i.mnemonic = .implied f)
    (hst : usesStack i.mnemonic = true) {p : Params} {c : Nat} {u : State} (h : Tally p c 1 1 u) :
    ∃ n d, Tally p c n d (f u) ∧ architecturalAccesses i = n ∧ i.row.cycles = n + d := by
  have stackRead := h.dummyRead u.stackAddr
  cases i <;> cases hst <;> cases hs
  case pha | php => exact ⟨_, _, h.push _, rfl, rfl⟩
  case pla | plp => exact ⟨_, _, stackRead.pull.quiet rfl rfl rfl, rfl, rfl⟩
  case rts => exact ⟨_, _, (stackRead.pullPc.dummyRead _).goto _, rfl, rfl⟩
  case rti => exact ⟨_, _, stackRead.leaveHandler, rfl, rfl⟩

/-- A branch that is not taken (R215); a taken one may take two cycles more. -/
theorem branch_cost {i : Instr} {cond : State → Bool} (h : shapeOf i.mnemonic = .branch cond) :
    architecturalAccesses i = 2 ∧ i.row.cycles = 2 ∧ extraCycles i = 2 := by
  cases i <;> cases h <;> exact ⟨rfl, rfl, rfl⟩

/-- JMP through a pointer takes its two reads more (R210). -/
theorem jump_cost {i : Instr} (h : shapeOf i.mnemonic = .jump) :
    (i.row.mode = .ind → architecturalAccesses i = 5 ∧ i.row.cycles = 5) ∧
      (i.row.mode ≠ .ind → architecturalAccesses i = 3 ∧ i.row.cycles = 3) := by
  cases i <;> cases h
  case jmpAbs => exact ⟨nofun, fun _ => ⟨rfl, rfl⟩⟩
  case jmpInd => exact ⟨fun _ => ⟨rfl, rfl⟩, fun hm => absurd rfl hm⟩

theorem call_cost {i : Instr} (h : shapeOf i.mnemonic = .call) :
    architecturalAccesses i = 5 ∧ i.row.cycles = 6 := by
  cases i <;> cases h
  exact ⟨rfl, rfl⟩

theorem brk_cost {i : Instr} (h : shapeOf i.mnemonic = .brk) :
    architecturalAccesses i = 6 ∧ i.row.cycles = 7 := by
  cases i <;> cases h
  exact ⟨rfl, rfl⟩

theorem jam_cost {i : Instr} (h : shapeOf i.mnemonic = .jam) :
    architecturalAccesses i = 1 ∧ i.row.cycles = 1 := by
  cases i <;> cases h <;> exact ⟨rfl, rfl⟩

/-! ### Each shape -/

section

variable {i : Instr} {s t : State}

/-- An instruction that takes `k` cycles over its base count. -/
theorem Counts.of_tally {k n d : Nat} (h : Tally s.params (i.row.cycles + k) n d t)
    (harch : architecturalAccesses i = n) (hk : k ≤ extraCycles i) (hd : i.row.cycles + k = n + d) : Counts i s t := by
  subst harch
  have hc := h.cycles
  exact ⟨by omega, by omega, d, hd ▸ h⟩

theorem penalty_le_extraCycles (i : Instr) : i.row.penalty.toNat ≤ extraCycles i := by
  unfold extraCycles
  split
  · exact (Bool.toNat_le _).trans one_le_two
  · exact le_rfl

/-- The address cycles of an instruction, in its own access class. -/
theorem begun_address_tally {p : Place} {cls : Access} (hp : placeOf i = some p) (ha : i.row.access = cls)
    (hcls : cls ≠ .none) : ∃ x, Tally s.params (i.row.cycles + (i.row.penalty && x).toNat) (1 + p.reads)
      (p.dummies cls x) (address cls p (begun i s)).st := by
  subst ha
  obtain ⟨x, h⟩ := (begun_tally i s).address i.row.access p
  rw [← (place_row hp).2 hcls, Nat.zero_add] at h
  exact ⟨x, h⟩

/-- An instruction with a memory operand after its final accesses: one, or the three of a read-modify-write, whose first
write is a dummy (R113 to R115). -/
theorem Counts.of_place {p : Place} {cls : Access} {x : Bool} {n d : Nat} (hp : placeOf i = some p)
    (ha : i.row.access = cls) (hcls : cls ≠ .none)
    (h : Tally s.params (i.row.cycles + (i.row.penalty && x).toNat) (1 + p.reads + n) (p.dummies cls x + d) t)
    (hn : n = if cls = .rmw then 2 else 1) (hd : d = if cls = .rmw then 1 else 0) : Counts i s t := by
  subst ha hn hd
  obtain ⟨harch, hcycles⟩ := place_cost hp hcls
  exact Counts.of_tally h harch ((Bool.toNat_le_toNat (Bool.and_le_left _ _)).trans (penalty_le_extraCycles i))
    (harch ▸ hcycles x)

/-- An instruction that takes its base cycles in a fixed number of accesses. -/
theorem Counts.of_fixed {n d : Nat} (h : Tally s.params i.row.cycles n d t) (harch : architecturalAccesses i = n)
    (hrow : i.row.cycles = n + d) : Counts i s t :=
  Counts.of_tally (k := 0) h harch (Nat.zero_le _) hrow

/-- Implied and accumulator mode with an effect that uses no stack (R101, R102). -/
theorem Counts.of_oneByte (h : Tally s.params i.row.cycles 1 1 t) (hb : i.row.bytes = 1)
    (hj : shapeOf i.mnemonic ≠ .jam) (hst : usesStack i.mnemonic = false) : Counts i s t := by
  obtain ⟨harch, hrow⟩ := oneByte_cost hb hj hst
  exact Counts.of_fixed h harch hrow

/-- Class read (R113). -/
theorem read_counts {f : Byte → State → State} (hs : shapeOf i.mnemonic = .read f)
    (hr : runShape (.read f) i s = .next t) : Counts i s t := by
  have start := begun_tally i s
  by_cases hm : i.row.mode = .imp
  · obtain ⟨rfl, hsrc, -, hb, -⟩ := read_implied hs hm
    simp only [runShape, hsrc] at hr
    cases hr
    exact Counts.of_oneByte (start.dummyRead _) hb (by simp [hs]) (usesStack_of_not_implied (by simp [hs]))
  · obtain ⟨n, hsrc, -⟩ | ⟨p, hsrc, hp, ha⟩ := read_source hs hm <;> simp only [runShape, hsrc] at hr <;> cases hr
    · obtain ⟨harch, hrow⟩ := imm_cost hsrc
      exact Counts.of_fixed ((start.fetched n).inert (read_inert hs _ _)) harch hrow
    · obtain ⟨x, h⟩ := begun_address_tally (s := s) hp ha (by decide)
      exact Counts.of_place (d := 0) hp ha (by decide) ((h.read _ _).inert (read_inert hs _ _)) rfl rfl

/-- Class write (R114). -/
theorem store_counts {v : State → Byte} (hs : shapeOf i.mnemonic = .store v)
    (hr : runShape (.store v) i s = .next t) : Counts i s t := by
  obtain ⟨p, hp, ha⟩ := store_place hs
  obtain ⟨x, h⟩ := begun_address_tally (s := s) hp ha (by decide)
  simp only [runShape, hp] at hr
  cases hr
  exact Counts.of_place (d := 0) hp ha (by decide) (h.write _ _) rfl rfl

/-- Class read-modify-write, in memory (R115) and in accumulator mode (R102). -/
theorem rmw_counts {f : Byte → State → Byte × State} (hs : shapeOf i.mnemonic = .rmw f)
    (hr : runShape (.rmw f) i s = .next t) : Counts i s t := by
  obtain ⟨-, p, hp, ha⟩ | ⟨-, hp, hb, -⟩ := rmw_place hs <;> simp only [runShape, hp] at hr <;> cases hr
  · obtain ⟨x, h⟩ := begun_address_tally (s := s) hp ha (by decide)
    exact Counts.of_place hp ha (by decide)
      ((((h.read _ _).dummyWrite _ _).inert (rmw_inert hs _ _)).write _ _) rfl rfl
  · exact Counts.of_oneByte
      ((((begun_tally i s).dummyRead _).inert (rmw_inert hs _ _)).quiet rfl rfl rfl) hb (by simp [hs])
      (usesStack_of_not_implied (by simp [hs]))

/-- Implied mode (R101). -/
theorem implied_counts {f : State → State} (hs : shapeOf i.mnemonic = .implied f)
    (hr : runShape (.implied f) i s = .next t) : Counts i s t := by
  have fetches := (begun_tally i s).dummyRead (begun i s).pc
  cases hr
  cases hst : usesStack i.mnemonic with
  | true =>
    obtain ⟨n, d, h, harch, hrow⟩ := stack_cost hs hst fetches
    exact Counts.of_fixed h harch hrow
  | false =>
    exact Counts.of_oneByte (fetches.inert (implied_inert hs hst _)) (implied_row hs).2.1 (by simp [hs]) hst

/-- A branch, taken or not (R215). -/
theorem branch_counts {cond : State → Bool} (hs : shapeOf i.mnemonic = .branch cond)
    (hr : branchInstr i.opcode i.row.cycles cond i.operandBytes.1 s = .next t) : Counts i s t := by
  obtain ⟨harch, hrow, hextra⟩ := branch_cost hs
  have fetches := (begun_tally i s).fetched i.operandBytes.1
  unfold branchInstr at hr
  dsimp only at hr
  split at hr
  · cases hr
    split
    · exact Counts.of_tally ((((fetches.dummyRead _).dummyRead _).addCycles 2).goto _) harch hextra.ge (by omega)
    · exact Counts.of_tally (((fetches.dummyRead _).addCycles 1).goto _) harch (by omega) (by omega)
  · cases hr
    exact Counts.of_fixed fetches harch hrow

/-- A high-byte AND store, wherever it stores (R284). -/
theorem unstable_counts {newS : State → Option Byte} {v : State → Byte} (hs : shapeOf i.mnemonic = .unstable newS v)
    (hr : runShape (.unstable newS v) i s = .next t) : Counts i s t := by
  obtain ⟨p, hp, ha, -⟩ := unstable_place hs
  obtain ⟨x, h⟩ := begun_address_tally (s := s) hp ha (by decide)
  have stored (sp a v) : Counts i s (((address .write p (begun i s)).st.setS sp).busWrite a v) :=
    Counts.of_place (d := 0) hp ha (by decide) ((h.inert (setS_inert sp _)).write a v) rfl rfl
  simp only [runShape, hp, unstableStore] at hr
  split at hr
  · split at hr <;> cases hr
    exact stored _ _ _
  · cases hr
    exact stored _ _ _

/-- Every instruction that answers a next state. -/
theorem exec_counts (he : exec i s = .next t) : Counts i s t := by
  have start := begun_tally i s
  have hr := runShape_of_next he
  cases hs : shapeOf i.mnemonic <;> rw [hs] at hr
  case read f => exact read_counts hs hr
  case store v => exact store_counts hs hr
  case rmw f => exact rmw_counts hs hr
  case implied f => exact implied_counts hs hr
  case branch cond => exact branch_counts hs hr
  case unstable newS v => exact unstable_counts hs hr
  case jam =>
    obtain ⟨harch, hrow⟩ := jam_cost hs
    cases hr
    exact Counts.of_fixed (start.quiet rfl hrow.symm rfl) harch hrow
  case jump =>
    obtain ⟨indirect, absolute⟩ := jump_cost hs
    have fetches := (start.fetched i.operandBytes.1).fetched i.operandBytes.2
    simp only [runShape] at hr
    split at hr <;> cases hr
    · next hm =>
      obtain ⟨harch, hrow⟩ := indirect hm
      exact Counts.of_fixed (((fetches.read _ _).read _ _).goto _) harch hrow
    · next hm =>
      obtain ⟨harch, hrow⟩ := absolute hm
      exact Counts.of_fixed (fetches.goto _) harch hrow
  case call =>
    obtain ⟨harch, hrow⟩ := call_cost hs
    cases hr
    exact Counts.of_fixed ((((start.fetched _).dummyRead _).pushPc.read _ _).goto _) harch hrow
  case brk =>
    obtain ⟨harch, hrow⟩ := brk_cost hs
    cases hr
    exact Counts.of_fixed (((start.dummyRead _).goto _).enterHandler _ _) harch hrow

end

end Sys2Proof.Machine
end

section
/-! The invariant of every step and event: memory stays canonical since a replay keeps it so, and the outputs fit since no
access is counted without a cycle. -/

namespace Sys2Proof.Machine

variable {s t : State}

/-- A state whose outputs are those of `n + d` accesses in at least as many cycles, 1 to 8, meets the invariant. -/
theorem Inv.of_tally {p : Params} {c n d : Nat} (hm : t.mem.wf = true) (h : Tally p c n d t) (hd : n + d ≤ c)
    (hlow : 1 ≤ c) (hhigh : c ≤ 8) : Inv t := by
  obtain ⟨-, rfl, hlength⟩ := h
  refine ⟨hm, ?_, hlow, hhigh⟩
  calc t.trace.length = n + d * dummyCount p := hlength
    _ ≤ n + d * 1 := Nat.add_le_add_left (Nat.mul_le_mul_left d (dummyCount_le p)) n
    _ ≤ t.cycles := by rwa [Nat.mul_one]

/-- An interrupt service (R305). -/
theorem interruptService_tally (vec : Addr) (s : State) : Tally s.params 7 5 2 (s.interruptService vec) :=
  (((beginStep_tally 7 s).dummyRead _).dummyRead _).enterHandler false vec

/-- A reset makes the two vector reads only (R341). -/
theorem resetSequence_tally (s : State) : Tally s.params 7 2 0 s.resetSequence :=
  ⟨by simp, by simp, by simp [State.resetSequence, jumpVector_length]⟩

theorem Inv.step (hs : Inv s) (h : Machine.step s = .next t) : Inv t := by
  have hm : t.mem.wf = true := replay_wf hs.memory (step_replays h).replayed
  obtain ⟨-, rfl⟩ | ⟨-, -, rfl⟩ | ⟨-, -, -, -, rfl⟩ | ⟨-, -, -, i, rest, -, he⟩ := step_cases h
  · exact Inv.of_tally hm (beginStep_tally 1 s) (by decide) (by decide) (by decide)
  · exact Inv.of_tally hm (interruptService_tally nmiVector _) (by decide) (by decide) (by decide)
  · exact Inv.of_tally hm (interruptService_tally irqVector s) (by decide) (by decide) (by decide)
  · obtain ⟨low, high, d, tally⟩ := exec_counts he
    obtain ⟨baseLow, baseHigh⟩ := cycles_bounds i
    have hc := tally.cycles
    exact Inv.of_tally hm tally le_rfl (by omega) (by omega)

theorem Inv.after (hs : Inv s) (e : Event) : Inv (s.after e) := by
  cases e with
  | nmiEdge => exact ⟨hs.memory, hs.traceFits, hs.cyclesLow, hs.cyclesHigh⟩
  | irqLine level => exact ⟨hs.memory, hs.traceFits, hs.cyclesLow, hs.cyclesHigh⟩
  | reset =>
    have hm : s.resetSequence.mem.wf = true := by simpa using hs.memory
    exact Inv.of_tally hm (resetSequence_tally s) (by decide) (by decide) (by decide)

/-- Settles O19: a step replays on memory and its cycles cover its accesses, and an event leaves memory alone. -/
theorem stepKeepsInvariant : Obligations.StepKeepsInvariant := fun _ hs => ⟨fun _ => hs.step, hs.after⟩

end Sys2Proof.Machine
end

section
/-! Decoding and encoding (R80 to R89): the decoder gives an instruction back from its own bytes, and an encoding is as
long as the opcode's mode says. -/

namespace Sys2Proof

/-- The map's cell for an instruction's opcode makes that instruction of its operand bytes (R88). The opcode is made a
literal first, so that the look-up by its digits evaluates. -/
theorem cellOf_opcode (i : Instr) : cellOf i.opcode i.operandBytes.1 i.operandBytes.2 = i := by
  cases i <;> dsimp only [Instr.opcode, Instr.operandBytes, encode, List.headD] <;> rfl

theorem instrOf_opcode (i : Instr) : instrOf i.opcode i.operandBytes.1 i.operandBytes.2 = .ok i := by
  rw [(cell_fits i.opcode).1, cellOf_opcode]

/-- An encoding is the opcode byte and as many operand bytes as its row asks for (R80, R81). -/
theorem encode_form (i : Instr) :
    (rowOf i.opcode).bytes = 1 ∧ encode i = [i.opcode] ∨
      (rowOf i.opcode).bytes = 2 ∧ (∃ n, encode i = [i.opcode, n]) ∨
      (rowOf i.opcode).bytes = 3 ∧ ∃ lo hi, encode i = [i.opcode, lo, hi] := by
  have made := congrArg encode (cellOf_opcode i).symm
  obtain ⟨-, ⟨hb, he⟩ | ⟨hb, he⟩ | ⟨hb, he⟩⟩ := cell_fits i.opcode
  · exact .inl ⟨hb, made.trans (he _ _)⟩
  · exact .inr (.inl ⟨hb, _, made.trans (he _ _)⟩)
  · exact .inr (.inr ⟨hb, _, _, made.trans (he _ _)⟩)

/-- An instruction's bytes decode to it, whatever follows them. -/
theorem decode_encode (i : Instr) (rest : List Byte) : decode (encode i ++ rest) = .ok (i, rest) := by
  have cell := instrOf_opcode i
  obtain ⟨hb, he⟩ | ⟨hb, n, he⟩ | ⟨hb, lo, hi, he⟩ := encode_form i <;> simp only [Instr.operandBytes, he] at cell <;>
    simp only [he, List.cons_append, List.nil_append, decode, hb, cell, Except.map]

/-- Settles O2: one direction is `decode_bytes`, the other `decode_encode`. -/
theorem decodeEncodeInverse : Obligations.DecodeEncodeInverse := fun _ rest i =>
  ⟨decode_bytes, fun h => h ▸ decode_encode i rest⟩

/-- The bytes that an opcode's row of the table counts are those of its mode, but for BRK's padding byte (R82, R83). -/
theorem rowOf_bytes :
    ∀ op : Byte, (rowOf op).bytes = if op = 0x00 then 2 else Machine.modeBytes (rowOf op).mode := by decide

/-- Settles O3: three bytes decode, to an instruction with the first of them as its opcode, and an instruction is as long
as its opcode's row says. -/
theorem everyOpcodeDecodesWithItsLength : Obligations.EveryOpcodeDecodesWithItsLength := by
  intro op n m rest
  obtain ⟨i, rest', hd⟩ := decode_three op n m rest
  obtain rfl : op = i.opcode := Option.some.inj (decode_head hd)
  refine ⟨i, rest', hd, rfl, ?_⟩
  rw [Machine.encode_length, row_eq, rowOf_bytes]

/-- Settles O1: by evaluation of the decoder at the thirteen words. -/
theorem specWordsDecode : Obligations.SpecWordsDecode :=
  ⟨rfl, rfl, rfl, rfl, rfl, rfl, rfl, rfl, rfl, rfl, rfl, rfl, rfl⟩

end Sys2Proof
end

section
/-! The effective address on plain memory (R84): the address cycles arrive at the formula of each mode. -/

namespace Sys2Proof.Machine

/-- With no device window every address is plain memory. -/
theorem State.isDevice_of_plain {s : State} (h : s.devices = []) (a : Addr) : s.isDevice a = false := by
  simp [State.isDevice, h]

/-- On plain memory the bus answers a read with the byte that stands there. -/
theorem State.peek_of_plain {s : State} (h : s.devices = []) (a : Addr) : s.peek a = s.mem.read a.toNat :=
  State.peek_plain (s.isDevice_of_plain h a)

/-- A zero-page address is its byte (R85). -/
@[simp] theorem zext16_toNat (v : Byte) : (zext16 v).toNat = v.toNat := by
  have small : v.toNat < 65536 := v.isLt.trans (by decide)
  simp [zext16, small]

/-- Indexing adds the index to the base, whatever the access class (R107, R110). -/
@[simp] theorem indexed_ea (cls : Access) (idx : Byte) (base : Addr) (s : State) :
    (indexed cls idx base s).ea = base + zext16 idx := by
  cases cls <;> rfl

/-- A zero-page pointer on plain memory, its second byte wrapping inside page $00 (R54). -/
theorem zeroPagePointer_of_plain {s : State} (h : s.devices = []) (p : Byte) :
    (zeroPagePointer p s).1 = word (s.mem.read (p + 1).toNat) (s.mem.read p.toNat) := by
  simp [zeroPagePointer, State.peek_of_plain, h]

/-- The address cycles of every mode arrive at R84's address, for every access class. -/
theorem address_ea_of_plain {s : State} (h : s.devices = []) (cls : Access) (p : Place) :
    (address cls p s).ea = effectiveAddress p s := by
  cases p with
  | zp n | zpX n | zpY n | abs lo hi => rfl
  | absX lo hi | absY lo hi => exact indexed_ea ..
  | indX n =>
    simp [address, indexedIndirect, effectiveAddress, zeroPagePointer_of_plain, h]
  | indY n =>
    simp [address, indirectIndexed, effectiveAddress, zeroPagePointer_of_plain, h]

theorem begun_devices (i : Instr) (s : State) : (begun i s).devices = s.devices := rfl

theorem begun_mem (i : Instr) (s : State) : (begun i s).mem = s.mem := rfl

/-- The opcode fetch changes no register and no byte of memory that the formulas of R84 name. -/
theorem effectiveAddress_begun (i : Instr) (p : Place) (s : State) :
    effectiveAddress p (begun i s) = effectiveAddress p s := by
  cases p <;> simp [effectiveAddress, begun]

/-- A memory operand is what a class-read instruction takes `M` from. -/
theorem sourceOf_of_place {i : Instr} {p : Place} (hp : placeOf i = some p) : sourceOf i = some (.mem p) := by
  unfold sourceOf
  split
  · next hm =>
    rw [placeOf, hm] at hp
    cases hp
  · rw [hp, Option.map_some]

section

variable {i : Instr} {s : State} {p : Place}

/-- The address cycles of an instruction on plain memory (R84). -/
theorem address_begun_ea (hd : s.devices = []) (cls : Access) (p : Place) :
    (address cls p (begun i s)).ea = effectiveAddress p s :=
  (address_ea_of_plain ((begun_devices i s).trans hd) cls p).trans (effectiveAddress_begun i p s)

theorem operandAddr_of_plain (hd : s.devices = []) (hp : placeOf i = some p) :
    operandAddr i s = effectiveAddress p s := by
  simp only [operandAddr, targetOf, hp, Option.map_some, address_begun_ea hd]

/-- The byte that a read at the effective address gives (R113): the address cycles change no byte of memory. -/
theorem operandValue_of_plain (hd : s.devices = []) (hp : placeOf i = some p) :
    operandValue i s = s.mem.read (effectiveAddress p s).toNat := by
  have plain : (address .read p (begun i s)).st.devices = [] := by rw [address_devices, begun_devices, hd]
  simp only [operandValue, sourceOf_of_place hp, readSource, State.busRead_fst, State.peek_of_plain plain,
    address_begun_ea hd, address_mem, begun_mem]

end

/-- Settles O17: the address, then the byte that a read finds there. -/
theorem effectiveAddressOfEachMode : Obligations.EffectiveAddressOfEachMode := fun _ _ _ hd hp =>
  ⟨operandAddr_of_plain hd hp, fun _ => operandValue_of_plain hd hp⟩

end Sys2Proof.Machine
end

section
/-! What a step is and how long its trace is (R100, R118, R302). -/

namespace Sys2Proof.Machine

/-- Settles O4: the three checks that R302 makes before the instruction all fail. -/
theorem stepRunsDecodedInstruction : Obligations.StepRunsDecodedInstruction := by
  intro s i rest hh hn masked hd
  have unserviced : (s.irqLine && !s.flagI) = false := by simpa [Decidable.imp_iff_not_or] using masked
  simp [step, hh, hn, unserviced, hd]

/-- With `P_BUS_TRACE = Full` a dummy access is an access. -/
theorem Tally.length_of_full {p : Params} {c n d : Nat} {u : State} (h : Tally p c n d u) (hp : p.busTrace = .full) :
    u.trace.length = n + d := by
  rw [h.length, dummyCount, hp, Nat.mul_one]

/-- With `P_BUS_TRACE = Architectural` it is none. -/
theorem Tally.length_of_architectural {p : Params} {c n d : Nat} {u : State} (h : Tally p c n d u)
    (hp : p.busTrace = .architectural) : u.trace.length = n := by
  rw [h.length, dummyCount, hp, Nat.mul_zero, Nat.add_zero]

/-- A step of a running core counts one cycle for every access, the dummy accesses among them: the two services and
every instruction, JAM included. -/
theorem running_step_tally {s t : State} (hh : s.halted = false) (h : step s = .next t) :
    ∃ n d, Tally s.params (n + d) n d t := by
  obtain ⟨halted, -⟩ | ⟨-, -, rfl⟩ | ⟨-, -, -, -, rfl⟩ | ⟨-, -, -, i, rest, -, he⟩ := step_cases h
  · rw [hh] at halted
    cases halted
  · exact ⟨5, 2, interruptService_tally nmiVector { s with nmiPending := false }⟩
  · exact ⟨5, 2, interruptService_tally irqVector s⟩
  · obtain ⟨-, -, d, tally⟩ := exec_counts he
    exact ⟨_, d, tally⟩

/-- A step of a halted core is the halted cycle (R320). -/
theorem step_of_halted {s : State} (hh : s.halted = true) : step s = .next s.haltedStep := if_pos hh

/-- Settles O14: with `P_BUS_TRACE = Full` the accesses that a running step's tally counts are all in the trace. -/
theorem traceLengthIsCycleCount : Obligations.TraceLengthIsCycleCount := by
  refine fun s t hfull h => ⟨fun hh => ?_, fun hh => ?_⟩
  · obtain ⟨n, d, tally⟩ := running_step_tally hh h
    rw [tally.length_of_full hfull, tally.cycles]
  · obtain rfl := next_eq (step_of_halted hh) h
    exact ⟨rfl, rfl⟩

end Sys2Proof.Machine
end

section
/-! Cycle counts by mode and access class (R116, R117). -/

namespace Sys2Proof.Machine

/-- R116's rows: class read in a mode whose address can cross a page. -/
theorem penalty_iff (i : Instr) :
    i.row.penalty = true ↔ i.row.access = .read ∧ i.row.mode ∈ [.absX, .absY, .indY] := by
  have table : ∀ op : Byte, (rowOf op).penalty = true ↔
      (rowOf op).access = .read ∧ (rowOf op).mode ∈ [.absX, .absY, .indY] := by decide
  rw [row_eq]
  exact table i.opcode

/-- R117's table gives the base cycles of every row that has an access class. -/
theorem baseCycles_row (i : Instr) (h : i.row.access ≠ .none) :
    baseCycles i.row.mode i.row.access = some i.row.cycles := by
  have table : ∀ op : Byte, (rowOf op).access ≠ .none →
      baseCycles (rowOf op).mode (rowOf op).access = some (rowOf op).cycles := by decide
  rw [row_eq] at h ⊢
  exact table i.opcode h

/-- The shapes that have an access class: the others access memory, if at all, by rules of their own. -/
def Shape.accesses : Shape → Bool
  | .read _ | .store _ | .rmw _ | .unstable _ _ => true
  | .implied _ | .branch _ | .jam | .jump | .call | .brk => false

theorem shape_accesses {i : Instr} (h : i.row.access ≠ .none) : (shapeOf i.mnemonic).accesses = true := by
  cases i <;> first | rfl | exact absurd rfl h

/-- An instruction that has an access class takes its row's cycles and the penalty (R116, R350). -/
theorem exec_cycles {i : Instr} {s t : State} (ha : i.row.access ≠ .none) (h : exec i s = .next t) :
    t.cycles = cycleCount i s := by
  have hw := wellFormed_of_next h
  have accesses := shape_accesses ha
  cases hs : shapeOf i.mnemonic <;> rw [hs] at accesses <;> cases accesses
  case read f =>
    obtain ⟨tr, d, he, -⟩ := exec_read hs hw
    obtain rfl := next_eq he h
    exact (read_inert hs _ _).cycles
  case store v =>
    obtain ⟨tr, d, he⟩ := exec_store hs hw
    obtain rfl := next_eq he h
    rfl
  case rmw f =>
    by_cases hm : i.row.mode = .acc
    · obtain ⟨tr, d, he⟩ := exec_acc hs hm hw
      obtain rfl := next_eq he h
      exact (rmw_inert hs _ _).cycles
    · obtain ⟨tr, d, m, he, -⟩ := exec_rmw hs hm hw
      obtain rfl := next_eq he h
      exact (rmw_inert hs _ _).cycles
  case unstable newS v =>
    obtain ⟨d, he⟩ := exec_unstable hs hw
    rw [he] at h
    dsimp only at h
    split at h
    · split at h <;> cases h
      rfl
    · cases h
      rfl

/-- Settles O18: the table's two facts about the row, and the cycles of an instruction by its row. -/
theorem cyclesByModeAndClass : Obligations.CyclesByModeAndClass := by
  refine fun i => ⟨penalty_iff i, fun s t ha h => ⟨i.row.cycles, baseCycles_row i ha, ?_⟩⟩
  rw [exec_cycles ha h, cycleCount]
  simp only [Bool.and_eq_true, penalty_iff, and_assoc]

end Sys2Proof.Machine
end

section
/-! What `P_BUS_TRACE = Architectural` drops on plain memory (R119): a simulation, operation by operation, of a step
with `P_BUS_TRACE = Full`. -/

namespace Sys2Proof.Machine

/-- `s` under `P_BUS_TRACE = Architectural`, with the trace `tr`. -/
def State.architectural (tr : List BusEntry) (s : State) : State :=
  { s with params := { s.params with busTrace := .architectural }, trace := tr }

/-- In a step on plain canonical memory with `P_BUS_TRACE = Full` that stands at `t`, the same step with `Architectural`
stands at `u`: the same state, with some accesses dropped from its trace. -/
structure Drops (t u : State) : Prop where
  full : t.params.busTrace = .full
  plain : t.devices = []
  canonical : t.mem.wf = true
  sublist : u.trace.Sublist t.trace
  same : u = t.architectural u.trace

/-- Before the step the two differ in the parameter alone. -/
theorem Drops.start {s : State} (hf : s.params.busTrace = .full) (hd : s.devices = []) (hm : s.mem.wf = true) :
    Drops s (s.architectural s.trace) := ⟨hf, hd, hm, .refl _, rfl⟩

namespace Drops

variable {t u : State}

/-! ### The operations -/

/-- What reads neither the trace nor `P_BUS_TRACE` is the same in both. -/
theorem value {α : Sort*} (h : Drops t u) (g : State → α) (hg : ∀ tr, g (t.architectural tr) = g t) : g u = g t :=
  h.same ▸ hg u.trace

/-- So is what the bus would answer. -/
theorem peek (h : Drops t u) (a : Addr) : u.peek a = t.peek a := h.value (·.peek a) fun _ => rfl

/-- An operation that performs the accesses `es` in both. -/
theorem perform (h : Drops t u) (g : State → State) (es : List BusEntry)
    (hg : ∀ tr, g (t.architectural tr) = (g t).architectural (tr ++ es)) (ht : (g t).trace = t.trace ++ es)
    (hp : (g t).params = t.params) (hd : (g t).devices = t.devices) (hm : (g t).mem.wf = true) :
    Drops (g t) (g u) := by
  obtain ⟨hfull, hplain, -, hsub, hsame⟩ := h
  have hu := hg u.trace
  rw [← hsame] at hu
  have htr : (g u).trace = u.trace ++ es := congrArg State.trace hu
  exact ⟨hp ▸ hfull, hd.trans hplain, hm, by rw [htr, ht]; exact hsub.append_right es, by rw [htr]; exact hu⟩

/-- An operation on registers and flags. -/
theorem quiet (h : Drops t u) (g : State → State) (hg : ∀ tr, g (t.architectural tr) = (g t).architectural tr)
    (ht : (g t).trace = t.trace) (hp : (g t).params = t.params) (hd : (g t).devices = t.devices)
    (hm : (g t).mem = t.mem) : Drops (g t) (g u) :=
  h.perform g [] (by simpa using hg) (by simpa using ht) hp hd (hm ▸ h.canonical)

theorem goto (h : Drops t u) {a b : Addr} (hb : b = a) : Drops (t.goto a) (u.goto b) :=
  hb ▸ h.quiet (·.goto b) (fun _ => rfl) rfl rfl rfl rfl

theorem addCycles (h : Drops t u) (n : Nat) : Drops (t.addCycles n) (u.addCycles n) :=
  h.quiet (·.addCycles n) (fun _ => rfl) rfl rfl rfl rfl

theorem fetched (h : Drops t u) (v : Byte) : Drops (t.fetched v) (u.fetched v) :=
  h.perform (·.fetched v) [⟨.read, t.pc, v⟩] (fun _ => rfl) rfl rfl rfl h.canonical

theorem read (h : Drops t u) {a b : Addr} (hb : b = a) : Drops (t.busRead a).2 (u.busRead b).2 :=
  hb ▸ h.perform (fun s => (s.busRead b).2) [⟨.read, b, t.peek b⟩] (fun _ => rfl) rfl rfl rfl h.canonical

theorem byteRead (h : Drops t u) {a b : Addr} (hb : b = a) : (u.busRead b).1 = (t.busRead a).1 := hb ▸ h.peek b

/-- Two bytes read one after the other make the same address (R52). -/
theorem wordRead (h : Drops t u) (lo hi : Addr) :
    word ((u.busRead lo).2.busRead hi).1 (u.busRead lo).1 = word ((t.busRead lo).2.busRead hi).1 (t.busRead lo).1 :=
  congrArg₂ word ((h.read rfl).byteRead rfl) (h.byteRead rfl)

theorem write (h : Drops t u) {a b : Addr} {v w : Byte} (hb : b = a) (hw : w = v) :
    Drops (t.busWrite a v) (u.busWrite b w) := by
  subst hb hw
  exact h.perform (·.busWrite b w) [⟨.write, b, w⟩] (fun _ => rfl) rfl rfl rfl (busWrite_wf b w h.canonical)

/-- A dummy read: only the full trace gains an entry, and on plain memory a read changes nothing else (R61). -/
theorem dummyRead (h : Drops t u) (a b : Addr) : Drops (t.dummyRead a) (u.dummyRead b) := by
  have performed : t.dummyRead a = t.logRead a (t.peek a) := by simp [State.dummyRead, h.full]
  have dropped : u.dummyRead b = u := by rw [h.same]; rfl
  have undrawn : (t.logRead a (t.peek a)).draws = t.draws := by simp [State.isDevice, h.plain]
  rw [performed, dropped]
  refine ⟨h.full, h.plain, h.canonical, h.sublist.trans (List.sublist_append_left ..), h.same.trans ?_⟩
  unfold State.architectural
  rw [undrawn]
  rfl

theorem dummyReadPc (h : Drops t u) : Drops (t.dummyRead t.pc) (u.dummyRead u.pc) := h.dummyRead _ _

theorem dummyReadStack (h : Drops t u) : Drops (t.dummyRead t.stackAddr) (u.dummyRead u.stackAddr) := h.dummyRead _ _

/-- A dummy write of the byte that stands at the address (R115): the full trace gains an entry, and canonical memory
stays as it is. -/
theorem dummyWrite (h : Drops t u) {a b : Addr} {v w : Byte} (hv : v = t.mem.read a.toNat) :
    Drops (t.dummyWrite a v) (u.dummyWrite b w) := by
  have performed : t.dummyWrite a v = t.busWrite a v := by simp [State.dummyWrite, h.full]
  have dropped : u.dummyWrite b w = u := by rw [h.same]; rfl
  have unchanged : (t.busWrite a v).mem = t.mem := by
    rw [State.busWrite_mem, hv, Memory.write_read h.canonical a.isLt, ite_self]
  rw [performed, dropped]
  refine ⟨h.full, h.plain, busWrite_wf a v h.canonical, h.sublist.trans (List.sublist_append_left ..), h.same.trans ?_⟩
  unfold State.architectural
  rw [unchanged]
  rfl

/-- A read, and the dummy write of the byte read. -/
theorem readPutBack (h : Drops t u) {a b : Addr} (hb : b = a) :
    Drops ((t.busRead a).2.dummyWrite a (t.busRead a).1) ((u.busRead b).2.dummyWrite b (u.busRead b).1) :=
  (h.read hb).dummyWrite (State.peek_of_plain h.plain a)

/-! ### The stack and the vectors -/

theorem push (h : Drops t u) {v w : Byte} (hw : w = v) : Drops (t.push v) (u.push w) := by
  subst hw
  exact h.perform (·.push w) [⟨.write, t.stackAddr, w⟩] (fun _ => rfl) rfl rfl rfl (push_wf w h.canonical)

theorem pull (h : Drops t u) : Drops t.pull.2 u.pull.2 :=
  h.perform (·.pull.2) [⟨.read, word 0x01 (t.sp + 1), t.pull.1⟩] (fun _ => rfl) rfl rfl rfl h.canonical

theorem pulled (h : Drops t u) : u.pull.1 = t.pull.1 := h.value (·.pull.1) fun _ => rfl

theorem pushPc (h : Drops t u) : Drops t.pushPc u.pushPc :=
  (h.push (h.value (hiByte ·.pc) fun _ => rfl)).push (h.value (loByte ·.pc) fun _ => rfl)

theorem pullPc (h : Drops t u) : Drops t.pullPc u.pullPc :=
  h.pull.pull.goto (congrArg₂ word h.pull.pulled h.pulled)

theorem jumpVector (h : Drops t u) (vec : Addr) : Drops (t.jumpVector vec) (u.jumpVector vec) :=
  ((h.read rfl).read rfl).goto (h.wordRead vec (vec + 1))

theorem enterHandler (h : Drops t u) (b : Bool) (vec : Addr) : Drops (t.enterHandler b vec) (u.enterHandler b vec) :=
  ((h.pushPc.push (h.pushPc.value (·.packP b) fun _ => rfl)).quiet (·.setI true) (fun _ => rfl) rfl rfl rfl
    rfl).jumpVector vec

theorem unpackP (h : Drops t u) {v w : Byte} (hw : w = v) : Drops (t.unpackP v) (u.unpackP w) :=
  hw ▸ h.quiet (·.unpackP w) (fun _ => rfl) rfl rfl rfl rfl

theorem loadA (h : Drops t u) {v w : Byte} (hw : w = v) : Drops (t.loadA v) (u.loadA w) :=
  hw ▸ h.quiet (·.loadA w) (fun _ => rfl) rfl rfl rfl rfl

theorem setA (h : Drops t u) {v w : Byte} (hw : w = v) : Drops (t.setA v) (u.setA w) :=
  hw ▸ h.quiet (·.setA w) (fun _ => rfl) rfl rfl rfl rfl

theorem setS (h : Drops t u) {v w : Option Byte} (hw : w = v) : Drops (t.setS v) (u.setS w) :=
  hw ▸ h.quiet (·.setS w) (fun _ => rfl) rfl rfl rfl rfl

theorem leaveHandler (h : Drops t u) : Drops t.leaveHandler u.leaveHandler := (h.pull.unpackP h.pulled).pullPc

end Drops

/-! ### The address cycles -/

/-- The address cycles arrive at one target in both. -/
structure Target.Drops (T U : Target) : Prop where
  ea : U.ea = T.ea
  base : U.base = T.base
  st : Machine.Drops T.st U.st

theorem Target.Drops.crossed {T U : Target} (h : T.Drops U) : U.crossed = T.crossed := by
  rw [Target.crossed, Target.crossed, h.ea, h.base]

namespace Drops

variable {t u : State}

theorem indexed (h : Drops t u) (cls : Access) {idx idx' : Byte} {base base' : Addr} (hi : idx' = idx)
    (hb : base' = base) : Target.Drops (Machine.indexed cls idx base t) (Machine.indexed cls idx' base' u) := by
  subst hi hb
  cases cls with
  | write | rmw | none => exact ⟨rfl, rfl, h.dummyRead _ _⟩
  | read =>
    refine ⟨rfl, rfl, ?_⟩
    dsimp only [Machine.indexed]
    split
    · exact (h.dummyRead _ _).addCycles 1
    · exact h

theorem zeroPagePointer (h : Drops t u) {p q : Byte} (hq : q = p) :
    (Machine.zeroPagePointer q u).1 = (Machine.zeroPagePointer p t).1 ∧
      Drops (Machine.zeroPagePointer p t).2 (Machine.zeroPagePointer q u).2 := by
  subst hq
  exact ⟨h.wordRead _ _, (h.read rfl).read rfl⟩

theorem address (h : Drops t u) (cls : Access) (p : Place) :
    Target.Drops (Machine.address cls p t) (Machine.address cls p u) := by
  have x : u.x = t.x := h.value State.x fun _ => rfl
  have y : u.y = t.y := h.value State.y fun _ => rfl
  cases p with
  | zp n => exact ⟨rfl, rfl, h.fetched n⟩
  | abs lo hi => exact ⟨rfl, rfl, (h.fetched lo).fetched hi⟩
  | zpX n =>
    have ea := congrArg (fun i => zext16 (n + i)) x
    exact ⟨ea, ea, (h.fetched n).dummyRead _ _⟩
  | zpY n =>
    have ea := congrArg (fun i => zext16 (n + i)) y
    exact ⟨ea, ea, (h.fetched n).dummyRead _ _⟩
  | absX lo hi => exact ((h.fetched lo).fetched hi).indexed cls x rfl
  | absY lo hi => exact ((h.fetched lo).fetched hi).indexed cls y rfl
  | indX n =>
    obtain ⟨pointer, reads⟩ := ((h.fetched n).dummyRead (zext16 n) (zext16 n)).zeroPagePointer (congrArg (n + ·) x)
    exact ⟨pointer, pointer, reads⟩
  | indY n =>
    obtain ⟨pointer, reads⟩ := (h.fetched n).zeroPagePointer (q := n) rfl
    exact reads.indexed cls y pointer

/-- `M` is the same byte (R113). -/
theorem readSource (h : Drops t u) (src : Source) :
    (Machine.readSource src u).1 = (Machine.readSource src t).1 ∧
      Drops (Machine.readSource src t).2 (Machine.readSource src u).2 := by
  cases src with
  | imm n => exact ⟨rfl, h.fetched n⟩
  | mem p =>
    obtain ⟨ea, -, st⟩ := h.address .read p
    exact ⟨st.byteRead ea, st.read ea⟩

end Drops

end Sys2Proof.Machine
end

section
/-! Every shape of an instruction makes the same step under `P_BUS_TRACE = Architectural` but for its dummy accesses
(R119). -/

namespace Sys2Proof.Machine

namespace Drops

variable {mn : Mnemonic} {t u : State}

/-! ### The effects -/

theorem readEffect (h : Drops t u) {f : Byte → State → State} (hs : shapeOf mn = .read f) {m m' : Byte} (hm : m' = m) :
    Drops (f m t) (f m' u) := by
  subst hm
  have inert := read_inert hs m' t
  exact h.quiet (f m') (fun _ => by cases mn <;> cases hs <;> rfl) inert.trace inert.params inert.devices inert.mem

/-- The byte to write back is the same, and so are the other effects (R115). -/
theorem rmwEffect (h : Drops t u) {f : Byte → State → Byte × State} (hs : shapeOf mn = .rmw f) {m m' : Byte}
    (hm : m' = m) : (f m' u).1 = (f m t).1 ∧ Drops (f m t).2 (f m' u).2 := by
  subst hm
  have inert := rmw_inert hs m' t
  exact ⟨h.value (f m' · |>.1) fun _ => by cases mn <;> cases hs <;> rfl,
    h.quiet (f m' · |>.2) (fun _ => by cases mn <;> cases hs <;> rfl) inert.trace inert.params inert.devices inert.mem⟩

theorem storedValue (h : Drops t u) {v : State → Byte} (hs : shapeOf mn = .store v) : v u = v t :=
  h.value v fun _ => by cases mn <;> cases hs <;> rfl

theorem branchTaken (h : Drops t u) {cond : State → Bool} (hs : shapeOf mn = .branch cond) : cond u = cond t :=
  h.value cond fun _ => by cases mn <;> cases hs <;> rfl

theorem unstableValues (h : Drops t u) {newS : State → Option Byte} {v : State → Byte}
    (hs : shapeOf mn = .unstable newS v) : newS u = newS t ∧ v u = v t :=
  ⟨h.value newS fun _ => by cases mn <;> cases hs <;> rfl, h.value v fun _ => by cases mn <;> cases hs <;> rfl⟩

/-- A stack instruction's effect (R200 to R203, R212, R213). -/
theorem stackEffect (h : Drops t u) {f : State → State} (hs : shapeOf mn = .implied f) (hst : usesStack mn = true) :
    Drops (f t) (f u) := by
  have stackRead := h.dummyReadStack
  cases mn <;> cases hst <;> cases hs
  case pha => exact h.push (h.value State.a fun _ => rfl)
  case php => exact h.push (h.value (·.packP true) fun _ => rfl)
  case pla => exact stackRead.pull.loadA stackRead.pulled
  case plp => exact stackRead.pull.unpackP stackRead.pulled
  case rts =>
    have pulled := stackRead.pullPc
    exact pulled.dummyReadPc.goto (pulled.value (·.pc + 1) fun _ => rfl)
  case rti => exact stackRead.leaveHandler

theorem impliedEffect (h : Drops t u) {f : State → State} (hs : shapeOf mn = .implied f) : Drops (f t) (f u) := by
  cases hst : usesStack mn with
  | true => exact h.stackEffect hs hst
  | false =>
    have inert := implied_inert hs hst t
    exact h.quiet f (fun _ => by cases mn <;> cases hst <;> cases hs <;> rfl) inert.trace inert.params
      inert.devices inert.mem

/-- The opcode fetch (R100), at which the trace begins anew. -/
theorem begun (h : Drops t u) (i : Instr) : Drops (Machine.begun i t) (Machine.begun i u) := by
  obtain ⟨hfull, hplain, hcanonical, -, hsame⟩ := h
  rw [hsame]
  exact ⟨hfull, hplain, hcanonical, .refl _, rfl⟩

end Drops

/-! ### Each shape -/

/-- The answers of one instruction in both: next states that are one but for dropped accesses, or no next state. -/
inductive ResultDrops : Result → Result → Prop
  | next {t u : State} (h : Drops t u) : ResultDrops (.next t) (.next u)
  | refused (r r' : Refusal) : ResultDrops (.refused r) (.refused r')
  | fault (f : Fault) : ResultDrops (.fault f) (.fault f)

theorem ResultDrops.exists_next {t : State} {r : Result} (h : ResultDrops (.next t) r) :
    ∃ u, r = .next u ∧ Drops t u := by
  cases h with
  | next h => exact ⟨_, rfl, h⟩

section

variable {i : Instr} {s s' : State}

/-- Class read (R113). -/
theorem read_drops (h : Drops s s') {f : Byte → State → State} (hs : shapeOf i.mnemonic = .read f) :
    ResultDrops (runShape (.read f) i s) (runShape (.read f) i s') := by
  unfold runShape
  dsimp only
  split
  · next src _ =>
    obtain ⟨value, reads⟩ := (h.begun i).readSource src
    exact .next (reads.readEffect hs value)
  · exact .next (h.begun i).dummyReadPc

/-- Class write (R114). -/
theorem store_drops (h : Drops s s') {v : State → Byte} (hs : shapeOf i.mnemonic = .store v) :
    ResultDrops (runShape (.store v) i s) (runShape (.store v) i s') := by
  unfold runShape
  dsimp only
  split
  · next p _ =>
    obtain ⟨ea, -, st⟩ := (h.begun i).address .write p
    exact .next (st.write ea (st.storedValue hs))
  · exact .fault _

/-- Class read-modify-write, in memory, where the dummy write puts back the byte just read (R115), and in accumulator
mode (R102). -/
theorem rmw_drops (h : Drops s s') {f : Byte → State → Byte × State} (hs : shapeOf i.mnemonic = .rmw f) :
    ResultDrops (runShape (.rmw f) i s) (runShape (.rmw f) i s') := by
  have start := h.begun i
  unfold runShape
  dsimp only
  split
  · next p _ =>
    obtain ⟨ea, -, st⟩ := start.address .rmw p
    obtain ⟨result, effect⟩ := (st.readPutBack ea).rmwEffect hs (st.byteRead ea)
    exact .next (effect.write ea result)
  · have discarded := start.dummyReadPc
    obtain ⟨result, effect⟩ := discarded.rmwEffect hs (discarded.value State.a fun _ => rfl)
    exact .next (effect.setA result)

/-- A branch, taken or not (R215). -/
theorem branch_drops (h : Drops s s') {cond : State → Bool} (hs : shapeOf i.mnemonic = .branch cond) :
    ResultDrops (runShape (.branch cond) i s) (runShape (.branch cond) i s') := by
  have fetches := (h.begun i).fetched i.operandBytes.1
  have pc := fetches.value State.pc fun _ => rfl
  have taken := fetches.branchTaken hs
  unfold begun at fetches pc taken
  simp only [runShape, branchInstr, taken, pc]
  split
  · refine .next (Drops.goto ?_ rfl)
    split
    · exact ((fetches.dummyRead _ _).dummyRead _ _).addCycles 2
    · exact (fetches.dummyRead _ _).addCycles 1
  · exact .next fetches

/-- A high-byte AND store, wherever it stores (R284). -/
theorem unstable_drops (h : Drops s s') {newS : State → Option Byte} {v : State → Byte}
    (hs : shapeOf i.mnemonic = .unstable newS v) :
    ResultDrops (runShape (.unstable newS v) i s) (runShape (.unstable newS v) i s') := by
  obtain ⟨p, hp, -⟩ := unstable_place hs
  have target := (h.begun i).address .write p
  have crossed := target.crossed
  obtain ⟨ea, base, st⟩ := target
  obtain ⟨sp, value⟩ := st.unstableValues hs
  have shCross := h.value (·.params.shCross) fun _ => rfl
  have stored (a w) := (st.setS sp).write (a := a) (v := w) rfl rfl
  unfold begun at crossed ea base sp value stored
  simp only [runShape, hp, unstableStore, crossed, ea, base, sp, value, shCross] at stored ⊢
  split
  · split
    · exact .refused _ _
    · exact .next (stored _ _)
  · exact .next (stored _ _)

/-- JMP (R210). -/
theorem jump_drops (h : Drops s s') : ResultDrops (runShape .jump i s) (runShape .jump i s') := by
  have fetches := ((h.begun i).fetched i.operandBytes.1).fetched i.operandBytes.2
  unfold runShape
  dsimp only
  split
  · exact .next (((fetches.read rfl).read rfl).goto (fetches.wordRead _ _))
  · exact .next (fetches.goto rfl)

/-- JSR (R211). -/
theorem call_drops (h : Drops s s') : ResultDrops (runShape .call i s) (runShape .call i s') := by
  have fetches := (h.begun i).fetched i.operandBytes.1
  have pushes := fetches.dummyReadStack.pushPc
  have pc := pushes.value State.pc fun _ => rfl
  exact .next ((pushes.read pc).goto (congrArg (word · _) (pushes.byteRead pc)))

/-- BRK (R214). -/
theorem brk_drops (h : Drops s s') : ResultDrops (runShape .brk i s) (runShape .brk i s') := by
  have start := h.begun i
  have past := start.dummyReadPc.goto (start.value (·.pc + 1) fun _ => rfl)
  exact .next (past.enterHandler true irqVector)

/-- JAM (R282). -/
theorem jam_drops (h : Drops s s') (hs : shapeOf i.mnemonic = .jam) :
    ResultDrops (runShape .jam i s) (runShape .jam i s') := by
  obtain ⟨-, hrow⟩ := jam_cost hs
  have start := h.begun i
  unfold begun at start
  rw [hrow] at start
  exact .next (start.quiet ({ · with halted := true }) (fun _ => rfl) rfl rfl rfl rfl)

/-- Every shape. -/
theorem runShape_drops (h : Drops s s') :
    ResultDrops (runShape (shapeOf i.mnemonic) i s) (runShape (shapeOf i.mnemonic) i s') := by
  cases hs : shapeOf i.mnemonic with
  | read f => exact read_drops h hs
  | store v => exact store_drops h hs
  | rmw f => exact rmw_drops h hs
  | implied f => exact .next ((h.begun i).dummyReadPc.impliedEffect hs)
  | branch cond => exact branch_drops h hs
  | unstable newS v => exact unstable_drops h hs
  | jam => exact jam_drops h hs
  | jump => exact jump_drops h
  | call => exact call_drops h
  | brk => exact brk_drops h

/-- Every instruction that answers a next state. -/
theorem exec_drops {t : State} (h : Drops s s') (he : exec i s = .next t) : ∃ u, exec i s' = .next u ∧ Drops t u := by
  have hw : i.wellFormed s'.params = true :=
    (h.value (i.wellFormed ·.params) fun _ => rfl).trans (wellFormed_of_next he)
  have shape := runShape_drops (i := i) h
  rw [runShape_of_next he] at shape
  rw [exec_eq_shape, gate_wellFormed hw]
  exact shape.exists_next

end

/-- Settles O16: the tally of an instruction's accesses, of which the dummies count nothing under
`P_BUS_TRACE = Architectural`, and the simulation of the full trace's step. -/
theorem architecturalTraceOnlyDropsDummies : Obligations.ArchitecturalTraceOnlyDropsDummies := by
  refine fun i s t he => ⟨fun harch => ?_, fun hfull hd hm => ?_⟩
  · obtain ⟨-, -, d, tally⟩ := exec_counts he
    exact tally.length_of_architectural harch
  · obtain ⟨u, hu, drops⟩ := exec_drops (Drops.start hfull hd hm) he
    exact ⟨u, hu, drops.sublist, drops.same⟩

end Sys2Proof.Machine
end

section
/-! In-line completion, said once for a class-read, a class-write and an implied instruction: what is left to prove of an
instruction is which registers its effect may write and what it leaves in them. -/

namespace Sys2Proof.Machine

/-- The mnemonics whose every opcode is unofficial (R87). -/
def unofficialMnemonics : List Mnemonic :=
  [.jam, .nopStar, .anc, .slo, .rla, .sre, .alr, .rra, .arr, .sax, .ane, .sha, .tas, .shy, .shx, .lax, .lxa, .las, .dcp,
    .sbx, .isc, .usbc]

/-- No mnemonic has opcodes of both kinds. -/
theorem official_iff (i : Instr) : i.row.official = true ↔ i.mnemonic ∉ unofficialMnemonics := by
  have table : ∀ op : Byte, (rowOf op).official = true ↔ (rowOf op).mnemonic ∉ unofficialMnemonics := by decide
  rw [Instr.mnemonic, row_eq]
  exact table i.opcode

theorem wellFormed_of_mnemonic {i : Instr} {mn : Mnemonic} (p : Params) (hm : i.mnemonic = mn)
    (h : mn ∉ unofficialMnemonics) : i.wellFormed p = true :=
  wellFormed_of_official p ((official_iff i).mpr (hm ▸ h))

/-! ### The registers and flags a load writes -/

theorem loadA_reg {r : Reg} (h : r ∉ [Reg.a]) (v : Byte) (s : State) : (s.loadA v).reg r = s.reg r := by
  cases r with
  | a => exact absurd List.mem_cons_self h
  | x | y | sp => rfl

theorem loadX_reg {r : Reg} (h : r ∉ [Reg.x]) (v : Byte) (s : State) : (s.loadX v).reg r = s.reg r := by
  cases r with
  | x => exact absurd List.mem_cons_self h
  | a | y | sp => rfl

theorem loadY_reg {r : Reg} (h : r ∉ [Reg.y]) (v : Byte) (s : State) : (s.loadY v).reg r = s.reg r := by
  cases r with
  | y => exact absurd List.mem_cons_self h
  | a | x | sp => rfl

/-- TXS writes S alone (R151). -/
theorem effTxs_reg {r : Reg} (h : r ∉ [Reg.sp]) (s : State) : (effTxs s).reg r = s.reg r := by
  cases r with
  | sp => exact absurd List.mem_cons_self h
  | a | x | y => rfl

theorem hasNZ_setNZ (v : Byte) (s : State) : HasNZ v (s.setNZ v) := ⟨rfl, BitVec.msb_eq_getLsbD_last v⟩

/-! ### The byte a bus write stores -/

theorem busWrite_keepsMemory (a : Addr) (v : Byte) (s : State) : KeepsMemory [a] s (s.busWrite a v) := by
  intro b hb
  rw [State.busWrite_mem]
  split
  · rfl
  · exact Memory.read_write_ne (hb a List.mem_cons_self)

theorem busWrite_lastWrite (a : Addr) (v : Byte) (s : State) : LastWrite a v s (s.busWrite a v) := by
  refine ⟨by simp, fun hd hm => ?_⟩
  rw [State.busWrite_mem, hd]
  exact Memory.read_write_eq hm

/-! ### Completion -/

theorem KeepsPlatform.keeps {rs : List Reg} {fs : List Flag} {s t : State} (h : KeepsPlatform fs s t)
    (hr : ∀ r, r ∉ rs → t.reg r = s.reg r) : Keeps rs fs s t :=
  ⟨hr, h.flags, h.nmiPending, h.halted, h.irqLine, h.devices, h.params⟩

section

variable {i : Instr} {s : State} {mn : Mnemonic} {rs : List Reg} {P : State → Prop}

/-- An instruction whose effect, on the state past it, touches registers and flags only. -/
theorem completesInLine_of_inert {fs : List Flag} {t : State} {tr : List BusEntry} {d : Nat} (he : exec i s = .next t)
    (hi : Inert fs (s.ran i tr d) t) (hr : ∀ r, r ∉ rs → t.reg r = s.reg r) (hP : P t) :
    CompletesInLine i s rs fs [] P :=
  ⟨t, he, (((KeepsPlatform.refl fs s).ran i tr d).inert hi).keeps hr, fun a _ => congrArg (·.read a) hi.mem, hi.cycles,
    hi.pc, hP⟩

/-- Class read (R113). -/
theorem read_completesInLine {f : Byte → State → State} (hm : i.mnemonic = mn) (hs : shapeOf mn = .read f)
    (hw : i.wellFormed s.params = true) (hr : ∀ m u r, r ∉ rs → (f m u).reg r = u.reg r)
    (hP : ∀ tr d, P (f (operandValue i s) (s.ran i tr d))) : CompletesInLine i s rs (flagWriters mn) [] P := by
  obtain ⟨tr, d, he, -⟩ := exec_read (hm ▸ hs) hw
  exact completesInLine_of_inert he (read_inert hs _ _) (hr _ _) (hP tr d)

/-- Implied mode, but for the stack instructions (R101). -/
theorem implied_completesInLine {f : State → State} (hm : i.mnemonic = mn) (hs : shapeOf mn = .implied f)
    (hst : usesStack mn = false) (hw : i.wellFormed s.params = true) (hr : ∀ u r, r ∉ rs → (f u).reg r = u.reg r)
    (hP : ∀ tr d, P (f (s.ran i tr d))) : CompletesInLine i s rs (flagWriters mn) [] P := by
  obtain ⟨tr, d, he⟩ := exec_implied (hm ▸ hs) hw
  exact completesInLine_of_inert he (implied_inert hs hst _) (hr _) (hP tr d)

/-- Class write (R114): the one byte written is the last access, and the value it takes from the registers is that of the
state before the instruction. -/
theorem store_completesInLine {v : State → Byte} (hm : i.mnemonic = mn) (hs : shapeOf mn = .store v)
    (hw : i.wellFormed s.params = true) (hv : ∀ tr d, v (s.ran i tr d) = v s) :
    CompletesInLine i s [] [] [operandAddr i s] fun t => LastWrite (operandAddr i s) (v s) s t := by
  obtain ⟨tr, d, he⟩ := exec_store (hm ▸ hs) hw
  rw [hv] at he
  have past := (KeepsPlatform.refl [] s).ran i tr d
  exact ⟨_, he, (past.busWrite _ _).keeps fun r _ => by cases r <;> rfl,
    busWrite_keepsMemory _ _ (s.ran i tr d), rfl, rfl, busWrite_lastWrite _ _ (s.ran i tr d)⟩

end

end Sys2Proof.Machine
end

section
/-! Loads, stores and register transfers (R140 to R151). -/

namespace Sys2Proof.Machine

/-- Settles O21: a load is a class-read instruction whose effect writes one register and N and Z. -/
theorem loadsReadOperand : Obligations.LoadsReadOperand := by
  refine fun i s => ⟨fun hm => ?lda, fun hm => ?ldx, fun hm => ?ldy⟩
  case lda =>
    exact read_completesInLine hm rfl (wellFormed_of_mnemonic _ hm (by decide)) (fun _ _ _ hr => loadA_reg hr _ _)
      fun _ _ => ⟨rfl, hasNZ_setNZ _ _⟩
  case ldx =>
    exact read_completesInLine hm rfl (wellFormed_of_mnemonic _ hm (by decide)) (fun _ _ _ hr => loadX_reg hr _ _)
      fun _ _ => ⟨rfl, hasNZ_setNZ _ _⟩
  case ldy =>
    exact read_completesInLine hm rfl (wellFormed_of_mnemonic _ hm (by decide)) (fun _ _ _ hr => loadY_reg hr _ _)
      fun _ _ => ⟨rfl, hasNZ_setNZ _ _⟩

/-- Settles O22: a store is a class-write instruction whose value is a register, which the address cycles leave as it
was. -/
theorem storesWriteRegister : Obligations.StoresWriteRegister := by
  rintro i s v (⟨hm, rfl⟩ | ⟨hm, rfl⟩ | ⟨hm, rfl⟩) <;>
    exact store_completesInLine hm rfl (wellFormed_of_mnemonic _ hm (by decide)) fun _ _ => rfl

/-- Settles O23: a transfer is an implied instruction whose effect loads the destination from the source; TXS alone
writes no flag. -/
theorem transfersCopyRegister : Obligations.TransfersCopyRegister := by
  refine fun s => ⟨?tax, ?tay, ?txa, ?tya, ?tsx, ?txs⟩
  case tax | tsx =>
    exact implied_completesInLine rfl rfl rfl (wellFormed_of_official _ rfl) (fun _ _ hr => loadX_reg hr _ _)
      fun _ _ => ⟨rfl, hasNZ_setNZ _ _⟩
  case tay =>
    exact implied_completesInLine rfl rfl rfl (wellFormed_of_official _ rfl) (fun _ _ hr => loadY_reg hr _ _)
      fun _ _ => ⟨rfl, hasNZ_setNZ _ _⟩
  case txa | tya =>
    exact implied_completesInLine rfl rfl rfl (wellFormed_of_official _ rfl) (fun _ _ hr => loadA_reg hr _ _)
      fun _ _ => ⟨rfl, hasNZ_setNZ _ _⟩
  case txs =>
    exact implied_completesInLine rfl rfl rfl (wellFormed_of_official _ rfl) (fun _ _ hr => effTxs_reg hr _)
      fun _ _ => rfl

end Sys2Proof.Machine
end

section
/-! In-line completion of a read-modify-write instruction in a memory mode (R115): what is left to prove of an
instruction is the byte its effect writes back and what it leaves in the registers and flags. -/

namespace Sys2Proof.Machine

/-- Only the four shifts and rotates have an accumulator mode (R102). -/
theorem mem_shifts_of_acc (i : Instr) (h : i.row.mode = .acc) : i.mnemonic ∈ [.asl, .lsr, .rol, .ror] := by
  have table : ∀ op : Byte, (rowOf op).mode = .acc → (rowOf op).mnemonic ∈ [.asl, .lsr, .rol, .ror] := by decide
  rw [row_eq] at h
  rw [Instr.mnemonic, row_eq]
  exact table i.opcode h

theorem mode_ne_acc {i : Instr} {mn : Mnemonic} (hm : i.mnemonic = mn) (h : mn ∉ [.asl, .lsr, .rol, .ror]) :
    i.row.mode ≠ .acc := fun hacc => h (hm ▸ mem_shifts_of_acc i hacc)

/-- The memory that the dummy write of a read-modify-write instruction may leave (R115): as it was, or with the byte put
back at a plain address. -/
def PutBack (a : Addr) (v : Byte) (s : State) (m : Memory) : Prop :=
  m = s.mem ∨ s.isDevice a = false ∧ m = s.mem.write a.toNat v

namespace PutBack

variable {a : Addr} {v : Byte} {s u : State}

theorem wf {m : Memory} (h : PutBack a v s m) (hm : s.mem.wf = true) : m.wf = true := by
  obtain rfl | ⟨-, rfl⟩ := h
  · exact hm
  · exact Memory.wf_write hm a.isLt

theorem read_ne {m : Memory} (h : PutBack a v s m) {b : Nat} (hb : a.toNat ≠ b) : m.read b = s.mem.read b := by
  obtain rfl | ⟨-, rfl⟩ := h
  · rfl
  · exact Memory.read_write_ne hb

/-- The write of the result leaves every other byte as it was before the instruction. -/
theorem keepsMemory (h : PutBack a v s u.mem) (w : Byte) : KeepsMemory [a] s (u.busWrite a w) := fun b hb =>
  (busWrite_keepsMemory a w u b hb).trans (h.read_ne (hb a List.mem_cons_self))

/-- The write of the result is the last access, and the result stands at a plain address afterwards. -/
theorem lastWrite (h : PutBack a v s u.mem) (hd : u.devices = s.devices) (w : Byte) :
    LastWrite a w s (u.busWrite a w) := by
  obtain ⟨last, stores⟩ := busWrite_lastWrite a w u
  refine ⟨last, fun hplain hm => stores ?_ (h.wf hm)⟩
  rwa [State.isDevice, hd]

end PutBack

/-- Class read-modify-write in a memory mode (R115). -/
theorem rmw_completesInLine {i : Instr} {s : State} {mn : Mnemonic} {rs : List Reg} {P : State → Prop} {w : Byte}
    {f : Byte → State → Byte × State} (hm : i.mnemonic = mn) (hs : shapeOf mn = .rmw f) (hmode : i.row.mode ≠ .acc)
    (hw : i.wellFormed s.params = true) (hr : ∀ m u r, r ∉ rs → (f m u).2.reg r = u.reg r)
    (hv : ∀ tr d m, (f (rmwValue i s) { s.ran i tr d with mem := m }).1 = w)
    (hP : ∀ tr d m, P ((f (rmwValue i s) { s.ran i tr d with mem := m }).2.busWrite (operandAddr i s) w)) :
    CompletesInLine i s rs (flagWriters mn) [operandAddr i s] fun t => LastWrite (operandAddr i s) w s t ∧ P t := by
  obtain ⟨tr, d, m, he, putBack⟩ := exec_rmw (hm ▸ hs) hmode hw
  dsimp only at he
  rw [hv] at he
  have effect := rmw_inert hs (rmwValue i s) { s.ran i tr d with mem := m }
  replace putBack : PutBack (operandAddr i s) (rmwValue i s) s (f (rmwValue i s) { s.ran i tr d with mem := m }).2.mem :=
    effect.mem ▸ putBack
  have platform := ((((KeepsPlatform.refl _ s).ran i tr d).setMem m).inert effect).busWrite (operandAddr i s) w
  exact ⟨_, he, platform.keeps (hr _ _), putBack.keepsMemory w, effect.cycles, effect.pc,
    putBack.lastWrite effect.devices w, hP tr d m⟩

end Sys2Proof.Machine
end

section
/-! Arithmetic and logic (R160 to R176, R274). -/

namespace Sys2Proof.Machine

/-! ### The registers and flags these effects write -/

theorem addCore_reg {r : Reg} (h : r ∉ [Reg.a]) (a m : Byte) (c : Bool) (s : State) :
    (s.addCore a m c).reg r = s.reg r := loadA_reg h _ _

theorem hasNZ_addCore (a m : Byte) (c : Bool) (s : State) : HasNZ (s.addCore a m c).a (s.addCore a m c) :=
  hasNZ_setNZ _ _

theorem compare_reg (reg m : Byte) (s : State) (r : Reg) : (s.compare reg m).reg r = s.reg r := by cases r <;> rfl

theorem effBit_reg (m : Byte) (s : State) (r : Reg) : (effBit m s).reg r = s.reg r := by cases r <;> rfl

theorem setNZ_reg (v : Byte) (s : State) (r : Reg) : (s.setNZ v).reg r = s.reg r := by cases r <;> rfl

/-- A write to memory changes no flag. -/
theorem HasNZ.busWrite {v : Byte} {s : State} (h : HasNZ v s) (a : Addr) (w : Byte) : HasNZ v (s.busWrite a w) := h

/-- Settles O24: ADC is `addCore` of `M`, whose sum and overflow are those of the numbers. -/
theorem adcAddsWithCarry : Obligations.AdcAddsWithCarry := fun _ _ hm =>
  read_completesInLine hm rfl (wellFormed_of_mnemonic _ hm (by decide)) (fun _ _ _ hr => addCore_reg hr _ _ _ _)
    fun _ _ => ⟨addCore_sum _ _ _ _, addCore_overflow _ _ _ _, hasNZ_addCore _ _ _ _⟩

/-- SBC and USBC have one effect (R274): `addCore` of the complement of `M`. -/
theorem sbc_completesInLine {i : Instr} {s : State} {mn : Mnemonic} (hm : i.mnemonic = mn)
    (hs : shapeOf mn = .read effSbc) (hw : i.wellFormed s.params = true) :
    CompletesInLine i s [.a] (flagWriters mn) [] fun t =>
      let m := operandValue i s
      let borrow : Nat := 1 - s.flagC.toNat
      let diff : Int := s.a.toInt - m.toInt - borrow
      t.a = s.a - m - BitVec.ofNat 8 borrow ∧ (t.flagC = true ↔ m.toNat + borrow ≤ s.a.toNat) ∧
        (t.flagV = true ↔ diff < -128 ∨ 127 < diff) ∧ HasNZ t.a t := by
  refine read_completesInLine hm hs hw (fun _ _ _ hr => addCore_reg hr _ _ _ _) fun tr d => ?_
  obtain ⟨difference, carry, overflow⟩ := addCore_complement s.a (operandValue i s) s.flagC (s.ran i tr d)
  exact ⟨difference, carry, overflow, hasNZ_addCore _ _ _ _⟩

/-- Settles O25: SBC is official, and USBC is where it is admitted the same effect. -/
theorem sbcSubtractsWithBorrow : Obligations.SbcSubtractsWithBorrow := by
  rintro i s (hm | ⟨hm, hadmitted⟩)
  · exact sbc_completesInLine hm rfl (wellFormed_of_mnemonic _ hm (by decide))
  · exact sbc_completesInLine hm rfl (wellFormed_of_admits hadmitted)

/-- Settles O26: each loads A with the combination of A and `M`. -/
theorem logicCombinesWithA : Obligations.LogicCombinesWithA := by
  rintro i s r (⟨hm, rfl⟩ | ⟨hm, rfl⟩ | ⟨hm, rfl⟩) <;>
    exact read_completesInLine hm rfl (wellFormed_of_mnemonic _ hm (by decide)) (fun _ _ _ hr => loadA_reg hr _ _)
      fun _ _ => ⟨rfl, hasNZ_setNZ _ _⟩

/-- Settles O27: each is `compare` of its register, which no read of `M` changes, with `M`. -/
theorem comparesSetCarryUnsigned : Obligations.ComparesSetCarryUnsigned := by
  rintro i s r (⟨hm, rfl⟩ | ⟨hm, rfl⟩ | ⟨hm, rfl⟩) <;>
    exact read_completesInLine hm rfl (wellFormed_of_mnemonic _ hm (by decide)) (fun _ _ r _ => compare_reg _ _ _ r)
      fun _ _ => compare_flags _ _ _

/-- Settles O28: BIT writes the three flags and no register. -/
theorem bitTestsOperand : Obligations.BitTestsOperand := fun _ _ hm =>
  read_completesInLine hm rfl (wellFormed_of_mnemonic _ hm (by decide)) (fun _ _ r _ => effBit_reg _ _ r)
    fun _ _ => ⟨rfl, rfl, rfl⟩

/-- Settles O29: INC and DEC are read-modify-write instructions in memory modes only, and their effect on the state is
`setNZ` of the byte written back. -/
theorem incDecMemory : Obligations.IncDecMemory := by
  rintro i s w (⟨hm, rfl⟩ | ⟨hm, rfl⟩) <;>
    exact rmw_completesInLine hm rfl (mode_ne_acc hm (by decide)) (wellFormed_of_mnemonic _ hm (by decide))
      (fun _ _ r _ => setNZ_reg _ _ r) (fun _ _ _ => rfl) fun _ _ _ =>
      (hasNZ_setNZ _ _).busWrite _ _

/-- Settles O30: an implied instruction whose effect loads the register with its successor or predecessor. -/
theorem incDecRegisters : Obligations.IncDecRegisters := by
  refine fun s => ⟨?inx, ?iny, ?dex, ?dey⟩
  case inx | dex =>
    exact implied_completesInLine rfl rfl rfl (wellFormed_of_official _ rfl) (fun _ _ hr => loadX_reg hr _ _)
      fun _ _ => ⟨rfl, hasNZ_setNZ _ _⟩
  case iny | dey =>
    exact implied_completesInLine rfl rfl rfl (wellFormed_of_official _ rfl) (fun _ _ hr => loadY_reg hr _ _)
      fun _ _ => ⟨rfl, hasNZ_setNZ _ _⟩

end Sys2Proof.Machine
end

section
/-! Decimal mode (R178): every operation of an instruction commutes with a change of D, so that an instruction whose
effect does too computes the same with either D. -/

namespace Sys2Proof.Machine

/-- `D <- d`. -/
def State.withD (d : Bool) (s : State) : State := { s with flagD := d }

/-! ### The bus and the address cycles -/

section

variable (d : Bool) (s : State)

@[simp] theorem State.withD_a : (s.withD d).a = s.a := rfl
@[simp] theorem State.withD_x : (s.withD d).x = s.x := rfl
@[simp] theorem State.withD_y : (s.withD d).y = s.y := rfl
@[simp] theorem State.withD_pc : (s.withD d).pc = s.pc := rfl
@[simp] theorem State.withD_params : (s.withD d).params = s.params := rfl
@[simp] theorem State.withD_peek (a : Addr) : (s.withD d).peek a = s.peek a := rfl

@[simp] theorem State.logRead_withD (a : Addr) (v : Byte) :
    (s.withD d).logRead a v = (s.logRead a v).withD d := rfl

@[simp] theorem State.busWrite_withD (a : Addr) (v : Byte) :
    (s.withD d).busWrite a v = (s.busWrite a v).withD d := rfl

@[simp] theorem State.fetched_withD (v : Byte) : (s.withD d).fetched v = (s.fetched v).withD d := rfl

@[simp] theorem State.addCycles_withD (n : Nat) : (s.withD d).addCycles n = (s.addCycles n).withD d := rfl

@[simp] theorem State.setA_withD (v : Byte) : (s.withD d).setA v = (s.setA v).withD d := rfl

@[simp] theorem State.beginInstr_withD (op : Byte) (base : Nat) :
    (s.withD d).beginInstr op base = (s.beginInstr op base).withD d := rfl

@[simp] theorem State.dummyRead_withD (a : Addr) : (s.withD d).dummyRead a = (s.dummyRead a).withD d := by
  unfold State.dummyRead
  rw [State.withD_params]
  split <;> rfl

@[simp] theorem State.dummyWrite_withD (a : Addr) (v : Byte) :
    (s.withD d).dummyWrite a v = (s.dummyWrite a v).withD d := by
  unfold State.dummyWrite
  rw [State.withD_params]
  split <;> rfl

/-- What the address cycles leave, with D changed in the state. -/
def Target.withD (t : Target) : Target := { t with st := t.st.withD d }

@[simp] theorem indexed_withD (cls : Access) (idx : Byte) (base : Addr) :
    indexed cls idx base (s.withD d) = (indexed cls idx base s).withD d := by
  unfold indexed Target.withD
  cases cls with
  | read => dsimp only; split <;> simp
  | write | rmw | none => simp

@[simp] theorem address_withD (cls : Access) (p : Place) :
    address cls p (s.withD d) = (address cls p s).withD d := by
  cases p with
  | zp n | abs lo hi => rfl
  | zpX n | zpY n => simp [address, zeroPageIndexed, Target.withD]
  | absX lo hi | absY lo hi => simp [address, absoluteIndexed]
  | indX n => simp [address, indexedIndirect, zeroPagePointer, Target.withD]
  | indY n => simp [address, indirectIndexed, zeroPagePointer]

theorem readSource_withD (src : Source) :
    readSource src (s.withD d) = ((readSource src s).1, (readSource src s).2.withD d) := by
  cases src with
  | imm n => rfl
  | mem p => simp [readSource, State.busRead, Target.withD]

end

/-! ### The instructions -/

section

variable {i : Instr} {s t : State} {d : Bool}

/-- Class read (R113). -/
theorem read_withD {f : Byte → State → State} (hf : ∀ m u, f m (u.withD d) = (f m u).withD d)
    (h : runShape (.read f) i s = .next t) : runShape (.read f) i (s.withD d) = .next (t.withD d) := by
  unfold runShape at h ⊢
  dsimp only at h ⊢
  split at h <;> cases h
  · simp [readInstr, readSource_withD, hf]
  · simp [impliedInstr, effNop]

/-- Class read-modify-write, in memory (R115) and in accumulator mode (R102). -/
theorem rmw_withD {f : Byte → State → Byte × State}
    (hf : ∀ m u, f m (u.withD d) = ((f m u).1, (f m u).2.withD d)) (h : runShape (.rmw f) i s = .next t) :
    runShape (.rmw f) i (s.withD d) = .next (t.withD d) := by
  unfold runShape at h ⊢
  dsimp only at h ⊢
  split at h <;> cases h
  · simp [rmwInstr, Target.withD, hf]
  · simp [accInstr, hf]

end

/-- The effects of R178's instructions: none of them reads or writes D. -/
theorem decimal_effects {mn : Mnemonic} (d : Bool) (hm : mn ∈ [.adc, .sbc, .rra, .isc, .usbc, .arr]) :
    (∃ f, shapeOf mn = .read f ∧ ∀ m u, f m (u.withD d) = (f m u).withD d) ∨
      ∃ f, shapeOf mn = .rmw f ∧ ∀ m u, f m (u.withD d) = ((f m u).1, (f m u).2.withD d) := by
  cases mn
  case adc | sbc | usbc | arr => exact .inl ⟨_, rfl, fun _ _ => rfl⟩
  case rra | isc => exact .inr ⟨_, rfl, fun _ _ => rfl⟩
  all_goals simp at hm

/-- Settles O31: admission reads the parameters only, and the shape of each instruction, like its effect, commutes with
the change of D. -/
theorem decimalFlagHasNoEffect : Obligations.DecimalFlagHasNoEffect := by
  intro i s t d hm h
  have hw := wellFormed_of_next h
  have shape := runShape_of_next h
  change exec i (s.withD d) = .next (t.withD d)
  rw [exec_eq_shape, gate_wellFormed (s := s.withD d) hw]
  obtain ⟨f, hs, hf⟩ | ⟨f, hs, hf⟩ := decimal_effects d hm <;> rw [hs] at shape ⊢
  · exact read_withD hf shape
  · exact rmw_withD hf shape

end Sys2Proof.Machine
end

section
/-! Shifts and rotates (R190 to R193): the four mnemonics share one effect, a shift written out, in accumulator mode and
in memory modes. -/

namespace Sys2Proof.Machine

/-- The four mnemonics are official, write N, Z and C, and their effect writes out the shift that `ShiftsTo` describes. -/
theorem shapeOf_of_shiftsTo {mn : Mnemonic} {c c' : Bool} {v r : Byte} (h : ShiftsTo mn c v r c') :
    ∃ sh : Bool → Byte → Shifted, shapeOf mn = .rmw (fun m u => u.shifted (sh u.flagC m)) ∧ sh c v = (r, c') ∧
      flagWriters mn = [.n, .z, .c] ∧ mn ∉ unofficialMnemonics := by
  obtain ⟨rfl, rfl, rfl⟩ | ⟨rfl, rfl, rfl⟩ | ⟨rfl, rfl, rfl⟩ | ⟨rfl, rfl, rfl⟩ := h
  · exact ⟨fun _ => shiftAsl, rfl, Prod.ext (shiftAsl_eq v) rfl, rfl, by decide⟩
  · exact ⟨fun _ => shiftLsr, rfl, Prod.ext (shiftLsr_eq v) rfl, rfl, by decide⟩
  · exact ⟨shiftRol, rfl, Prod.ext (shiftRol_eq c v) rfl, rfl, by decide⟩
  · exact ⟨shiftRor, rfl, Prod.ext (shiftRor_eq c v) rfl, rfl, by decide⟩

/-! ### The registers and flags a shift writes -/

theorem shifted_reg (sh : Shifted) (s : State) (r : Reg) : (s.shifted sh).2.reg r = s.reg r := by cases r <;> rfl

theorem hasNZ_shifted (sh : Shifted) (s : State) : HasNZ sh.1 (s.shifted sh).2 := hasNZ_setNZ _ _

/-- A write to A changes no flag. -/
theorem HasNZ.setA {v : Byte} {s : State} (h : HasNZ v s) (w : Byte) : HasNZ v (s.setA w) := h

theorem setA_reg {r : Reg} (h : r ∉ [Reg.a]) (v : Byte) (s : State) : (s.setA v).reg r = s.reg r := by
  cases r with
  | a => exact absurd List.mem_cons_self h
  | x | y | sp => rfl

/-! ### Completion -/

/-- Accumulator mode (R102): memory stays, and the result goes to A. -/
theorem acc_completesInLine {i : Instr} {s : State} {mn : Mnemonic} {P : State → Prop} {f : Byte → State → Byte × State}
    (hm : i.mnemonic = mn) (hs : shapeOf mn = .rmw f) (hmode : i.row.mode = .acc) (hw : i.wellFormed s.params = true)
    (hr : ∀ m u r, r ∉ [Reg.a] → (f m u).2.reg r = u.reg r)
    (hP : ∀ tr d, P ((f s.a (s.ran i tr d)).2.setA (f s.a (s.ran i tr d)).1)) :
    CompletesInLine i s [.a] (flagWriters mn) [] P := by
  obtain ⟨tr, d, he⟩ := exec_acc (hm ▸ hs) hmode hw
  have effect := rmw_inert hs s.a (s.ran i tr d)
  have platform := (((KeepsPlatform.refl _ s).ran i tr d).inert effect).setA (f s.a (s.ran i tr d)).1
  exact ⟨_, he, platform.keeps fun r h => (setA_reg h _ _).trans (hr _ _ r h), fun a _ => congrArg (·.read a) effect.mem,
    effect.cycles, effect.pc, hP tr d⟩

/-- Settles O32: the effect writes out the shift of A, with the carry that stood before the instruction. -/
theorem shiftsOfAccumulator : Obligations.ShiftsOfAccumulator := by
  intro i s r c' hmode h
  obtain ⟨sh, hs, hsh, hfs, hofficial⟩ := shapeOf_of_shiftsTo h
  rw [← hfs]
  refine acc_completesInLine rfl hs hmode (wellFormed_of_mnemonic _ rfl hofficial) (fun _ _ r _ => shifted_reg _ _ r)
    fun tr d => ?_
  have effect : sh (s.ran i tr d).flagC s.a = (r, c') := hsh
  rw [effect]
  exact ⟨rfl, rfl, (hasNZ_shifted (r, c') _).setA _⟩

/-- Settles O33: the effect writes out the shift of the byte read, with the carry that stood before the instruction. -/
theorem shiftsOfMemory : Obligations.ShiftsOfMemory := by
  intro i s r c' hmode h
  obtain ⟨sh, hs, hsh, hfs, hofficial⟩ := shapeOf_of_shiftsTo h
  have effect (tr : List BusEntry) (d : Nat) (m : Memory) :
      sh { s.ran i tr d with mem := m }.flagC (rmwValue i s) = (r, c') := hsh
  rw [← hfs]
  refine rmw_completesInLine rfl hs hmode (wellFormed_of_mnemonic _ rfl hofficial) (fun _ _ r _ => shifted_reg _ _ r)
    (fun tr d m => congrArg Prod.fst (effect tr d m)) fun tr d m => ?_
  rw [effect tr d m]
  exact ⟨rfl, (hasNZ_shifted (r, c') _).busWrite _ _⟩

end Sys2Proof.Machine
end

section
/-! The stack instructions (R200 to R203): a push and a pull are each described once on the state past the instruction,
and an instruction is then its pushed value or what it makes of the pulled byte. -/

namespace Sys2Proof.Machine

/-! ### Pushes (R58) -/

/-- A push moves S alone among the registers. -/
theorem push_reg {r : Reg} (h : r ∉ [Reg.sp]) (v : Byte) (s : State) : (s.push v).reg r = s.reg r := by
  cases r with
  | sp => exact absurd List.mem_cons_self h
  | a | x | y => rfl

theorem push_keepsMemory (v : Byte) (s : State) : KeepsMemory [word 0x01 s.sp] s (s.push v) :=
  busWrite_keepsMemory s.stackAddr v s

theorem push_lastWrite (v : Byte) (s : State) : LastWrite (word 0x01 s.sp) v s (s.push v) :=
  busWrite_lastWrite s.stackAddr v s

/-- An instruction that only pushes a byte, which its fetches leave as it was before them. -/
theorem push_completesInLine {i : Instr} {s : State} (v : State → Byte)
    (hs : shapeOf i.mnemonic = .implied fun u => u.push (v u)) (hw : i.wellFormed s.params = true)
    (hv : ∀ tr d, v (s.ran i tr d) = v s) :
    CompletesInLine i s [.sp] [] [word 0x01 s.sp] fun t =>
      t.sp = s.sp - 1 ∧ LastWrite (word 0x01 s.sp) (v s) s t := by
  obtain ⟨tr, d, he⟩ := exec_implied hs hw
  rw [hv] at he
  have platform := ((KeepsPlatform.refl [] s).ran i tr d).push (v s)
  exact ⟨_, he, platform.keeps fun r hr => push_reg hr _ (s.ran i tr d), push_keepsMemory _ (s.ran i tr d), rfl, rfl,
    rfl, push_lastWrite _ (s.ran i tr d)⟩

/-- Settles O35: PHA and PHP push A and the status byte, which read registers and flags only. -/
theorem pushesStoreBelow : Obligations.PushesStoreBelow := by
  refine fun s => ⟨?pha, ?php⟩
  case pha => exact push_completesInLine (·.a) rfl (wellFormed_of_official _ rfl) fun _ _ => rfl
  case php => exact push_completesInLine (·.packP true) rfl (wellFormed_of_official _ rfl) fun _ _ => rfl

/-! ### Pulls (R59) -/

/-- The dummy read and the pull with which PLA and PLP begin (R202, R203). -/
def State.pullAfterDummy (s : State) : Byte × State := (s.dummyRead s.stackAddr).pull

@[simp] theorem State.pullAfterDummy_sp (s : State) : s.pullAfterDummy.2.sp = s.sp + 1 := by
  simp [State.pullAfterDummy]

@[simp] theorem State.pullAfterDummy_pc (s : State) : s.pullAfterDummy.2.pc = s.pc := by simp [State.pullAfterDummy]

@[simp] theorem State.pullAfterDummy_cycles (s : State) : s.pullAfterDummy.2.cycles = s.cycles := by
  simp [State.pullAfterDummy]

@[simp] theorem State.pullAfterDummy_mem (s : State) : s.pullAfterDummy.2.mem = s.mem := by simp [State.pullAfterDummy]

/-- The dummy read and the pull move S alone among the registers. -/
theorem pullAfterDummy_reg {r : Reg} (h : r ≠ .sp) (s : State) : s.pullAfterDummy.2.reg r = s.reg r := by
  cases r with
  | sp => exact absurd rfl h
  | a | x | y => simp [State.pullAfterDummy, State.reg]

theorem KeepsPlatform.pullAfterDummy {fs : List Flag} {s u : State} (h : KeepsPlatform fs s u) :
    KeepsPlatform fs s u.pullAfterDummy.2 := (h.dummyRead _).pull

/-- The byte pulled is the one read last, one place above S. -/
theorem pullAfterDummy_lastRead (s : State) :
    LastRead (word 0x01 (s.sp + 1)) s.pullAfterDummy.1 s s.pullAfterDummy.2 := by
  have pulled : s.pullAfterDummy.1 = (s.dummyRead s.stackAddr).peek (word 0x01 (s.sp + 1)) := by
    simp [State.pullAfterDummy]
  constructor
  · rw [pulled]
    simp [State.pullAfterDummy, State.pull, State.logRead, State.stackAddr, State.peek, State.isDevice]
  · intro plain
    rw [pulled, State.pullAfterDummy_mem, State.peek_plain (by simpa using plain), State.dummyRead_mem]

/-- An effect on registers and flags performs no access. -/
theorem LastRead.inert {a : Addr} {v : Byte} {fs : List Flag} {s u t : State} (h : LastRead a v s u)
    (hi : Inert fs u t) : LastRead a v s t := by
  obtain ⟨last, plain⟩ := h
  exact ⟨hi.trace ▸ last, hi.mem ▸ plain⟩

/-- An instruction that pulls a byte and lets it into registers `rs` and flags `fs`, S not among them. -/
theorem pull_completesInLine {i : Instr} {s : State} {rs : List Reg} {fs : List Flag} {P : State → Prop}
    (g : Byte → State → State)
    (hs : shapeOf i.mnemonic = .implied fun u => g u.pullAfterDummy.1 u.pullAfterDummy.2)
    (hw : i.wellFormed s.params = true) (hg : ∀ v u, Inert fs u (g v u)) (hsp : .sp ∉ rs)
    (hr : ∀ v u r, r ∉ rs → (g v u).reg r = u.reg r)
    (hP : ∀ v u, LastRead (word 0x01 (s.sp + 1)) v s (g v u) → P (g v u)) :
    CompletesInLine i s (.sp :: rs) fs [] fun t => t.sp = s.sp + 1 ∧ P t := by
  obtain ⟨tr, d, he⟩ := exec_implied hs hw
  have effect := hg (s.ran i tr d).pullAfterDummy.1 (s.ran i tr d).pullAfterDummy.2
  have regs := hr (s.ran i tr d).pullAfterDummy.1 (s.ran i tr d).pullAfterDummy.2
  have platform := ((KeepsPlatform.refl fs s).ran i tr d).pullAfterDummy.inert effect
  have memory := effect.mem.trans (State.pullAfterDummy_mem (s.ran i tr d))
  refine ⟨_, he, platform.keeps fun r h => ?_, fun a _ => congrArg (·.read a) memory,
    effect.cycles.trans (State.pullAfterDummy_cycles _), effect.pc.trans (State.pullAfterDummy_pc _),
    (regs .sp hsp).trans (State.pullAfterDummy_sp (s.ran i tr d)),
    hP _ _ ((pullAfterDummy_lastRead (s.ran i tr d)).inert effect)⟩
  obtain ⟨hne, hrs⟩ := not_or.mp (mt List.mem_cons.mpr h)
  exact (regs r hrs).trans (pullAfterDummy_reg hne (s.ran i tr d))

/-- The load of A is LDA's effect. -/
theorem loadA_inert (v : Byte) (u : State) : Inert [.n, .z] u (u.loadA v) :=
  read_inert (mn := .lda) rfl v u

theorem unpackP_inert (v : Byte) (u : State) : Inert [.n, .v, .d, .i, .z, .c] u (u.unpackP v) :=
  ⟨rfl, rfl, rfl, rfl, rfl, rfl, rfl, rfl, rfl, rfl, fun f hf => absurd (by cases f <;> decide) hf⟩

theorem unpackP_reg (v : Byte) (s : State) (r : Reg) : (s.unpackP v).reg r = s.reg r := by cases r <;> rfl

/-- Settles O36: PLA loads A with the byte pulled, and PLP unpacks it into the six flags. -/
theorem pullsReadAbove : Obligations.PullsReadAbove := by
  refine fun s => ⟨?pla, ?plp⟩
  case pla =>
    exact pull_completesInLine State.loadA rfl (wellFormed_of_official _ rfl) loadA_inert (by decide)
      (fun _ _ _ hr => loadA_reg hr _ _) fun v u read => ⟨read, hasNZ_setNZ v _⟩
  case plp =>
    exact pull_completesInLine State.unpackP rfl (wellFormed_of_official _ rfl) unpackP_inert (by decide)
      (fun v u r _ => unpackP_reg v u r) fun v _ read => ⟨v, read, rfl, rfl, rfl, rfl, rfl, rfl⟩

end Sys2Proof.Machine
end

section
/-! Reads and pulls (R9, R59): the accesses of a control transfer but for its pushes leave every register and byte of
memory as it was, S apart, and are answered from that memory. -/

namespace Sys2Proof.Machine

/-- `u` is `s` after bus reads, among them pulls that moved S up by `k`, which may have written the flags `fs`. -/
structure Pulled (k : Byte) (fs : List Flag) (s u : State) : Prop where
  platform : KeepsPlatform fs s u
  regs : ∀ r, r ∉ [Reg.sp] → u.reg r = s.reg r
  sp : u.sp = s.sp + k
  mem : u.mem = s.mem

namespace Pulled

variable {k : Byte} {fs : List Flag} {s u : State}

theorem beginInstr (fs : List Flag) (op : Byte) (base : Nat) (s : State) : Pulled 0 fs s (s.beginInstr op base) :=
  ⟨(KeepsPlatform.refl fs s).beginInstr op base, fun r _ => by cases r <;> rfl, (BitVec.add_zero s.sp).symm, rfl⟩

theorem ran (fs : List Flag) (i : Instr) (tr : List BusEntry) (d : Nat) (s : State) : Pulled 0 fs s (s.ran i tr d) :=
  ⟨(KeepsPlatform.refl fs s).ran i tr d, fun r _ => by cases r <;> rfl, (BitVec.add_zero s.sp).symm, rfl⟩

/-- A change of the flags `fs`, PC and the outputs only. -/
theorem quiet {t : State} (h : Pulled k fs s u) (hp : KeepsPlatform fs s t) (hr : t.reg = u.reg) (hm : t.mem = u.mem) :
    Pulled k fs s t :=
  ⟨hp, fun r hne => (congrFun hr r).trans (h.regs r hne), (congrFun hr .sp).trans h.sp, hm.trans h.mem⟩

theorem read (h : Pulled k fs s u) (a : Addr) : Pulled k fs s (u.logRead a (u.peek a)) :=
  h.quiet (h.platform.logRead a _) rfl rfl

theorem fetched (h : Pulled k fs s u) (v : Byte) : Pulled k fs s (u.fetched v) := h.quiet (h.platform.fetched v) rfl rfl

theorem goto (h : Pulled k fs s u) (a : Addr) : Pulled k fs s (u.goto a) := h.quiet (h.platform.goto a) rfl rfl

theorem addCycles (h : Pulled k fs s u) (n : Nat) : Pulled k fs s (u.addCycles n) :=
  h.quiet (h.platform.addCycles n) rfl rfl

theorem dummyRead (h : Pulled k fs s u) (a : Addr) : Pulled k fs s (u.dummyRead a) := by
  unfold State.dummyRead
  split
  · exact h.read a
  · exact h

/-- A pull moves S up by one (R59). -/
theorem pull (h : Pulled k fs s u) : Pulled (k + 1) fs s u.pull.2 := by
  refine ⟨h.platform.pull, fun r hr => ?_, ?_, h.mem⟩
  · rw [← h.regs r hr]
    cases r with
    | sp => exact absurd List.mem_cons_self hr
    | a | x | y => rfl
  · rw [State.pull_sp, h.sp, BitVec.add_assoc]

/-- A pull of the status byte may write every flag. -/
theorem pullP (h : Pulled k fs s u) (hfs : ∀ f, f ∈ fs) : Pulled (k + 1) fs s (u.pull.2.unpackP u.pull.1) :=
  h.pull.quiet (h.platform.pull.unpackP hfs _) rfl rfl

theorem pullPc (h : Pulled k fs s u) : Pulled (k + 1 + 1) fs s u.pullPc := h.pull.pull.goto _

/-! ### What such a state answers, and what it keeps -/

theorem isDevice (h : Pulled k fs s u) (a : Addr) : u.isDevice a = s.isDevice a := by
  rw [State.isDevice, h.platform.devices, State.isDevice]

/-- A read is answered from the memory before the instruction. -/
theorem peek_holds (h : Pulled k fs s u) (a : Addr) : Holds s a (u.peek a) := fun plain => by
  rw [State.peek_plain ((h.isDevice a).trans plain), h.mem]

/-- A pull answers the byte above S (R59). -/
theorem pull_holds (h : Pulled k fs s u) : Holds s (word 0x01 (s.sp + (k + 1))) u.pull.1 := by
  rw [State.pull_fst, h.sp, BitVec.add_assoc]
  exact h.peek_holds _

theorem keepsMemory (h : Pulled k fs s u) : KeepsMemory [] s u := fun a _ => congrArg (·.read a) h.mem

/-- What a later state keeps of `u`'s memory, it keeps of the memory before the instruction. -/
theorem keepsMemory_of {l : List Addr} {t : State} (h : Pulled k fs s u) (ht : KeepsMemory l u t) :
    KeepsMemory l s t := fun a ha => (ht a ha).trans (congrArg (·.read a) h.mem)

theorem stores_of {a : Addr} {v : Byte} {t : State} (h : Pulled k fs s u) (ht : Stores a v u t) : Stores a v s t :=
  fun plain canonical => ht ((h.isDevice a).trans plain) (h.mem ▸ canonical)

/-- With nothing pulled, every register is as before. -/
theorem keeps (h : Pulled 0 fs s u) : Keeps [] fs s u := by
  refine h.platform.keeps fun r _ => ?_
  cases r with
  | sp => exact h.sp.trans (BitVec.add_zero s.sp)
  | a | x | y => exact h.regs _ (by decide)

end Pulled

end Sys2Proof.Machine
end

section
/-! Jumps, calls, returns and BRK (R210 to R214): what each reads and pushes, in its order. -/

namespace Sys2Proof.Machine

/-- An official instruction runs its shape. -/
theorem exec_of_official {i : Instr} (s : State) (hw : i.row.official = true) :
    exec i s = runShape (shapeOf i.mnemonic) i s := by
  rw [exec_eq_shape, gate_wellFormed (wellFormed_of_official _ hw)]

/-! ### Jumps (R210) -/

/-- Settles O37: the operand's two fetches, and for JMP (abs) the two reads of the pointer, which memory answers. -/
theorem jumpsLoadPc : Obligations.JumpsLoadPc := by
  refine fun lo hi s => ⟨?jmpAbs, ?jmpInd⟩
  case jmpAbs =>
    have jump := (((Pulled.beginInstr [] 0x4C 3 s).fetched lo).fetched hi).goto (word hi lo)
    exact ⟨_, exec_of_official s rfl, jump.keeps, jump.keepsMemory, rfl, rfl⟩
  case jmpInd =>
    have fetches := ((Pulled.beginInstr [] 0x6C 5 s).fetched lo).fetched hi
    have low := fetches.read (word hi lo)
    have high := low.read (word hi (lo + 1))
    exact ⟨_, exec_of_official s rfl, (high.goto _).keeps, (high.goto _).keepsMemory, rfl, _, _, rfl,
      fetches.peek_holds _, low.peek_holds _⟩

/-! ### Calls and returns (R211 to R213) -/

/-- A read at the end of a step stands last in the trace. -/
theorem logRead_lastRead (a : Addr) (s : State) : LastRead a (s.peek a) s (s.logRead a (s.peek a)) :=
  ⟨by simp, State.peek_plain⟩

/-- The pushes of the return address move S alone among the registers. -/
theorem pushPc_reg {r : Reg} (h : r ∉ [Reg.sp]) (s : State) : s.pushPc.reg r = s.reg r :=
  (push_reg h _ _).trans (push_reg h _ _)

/-- JSR fetches two of its bytes and makes a dummy read before it pushes PC and reads the third (R211). -/
theorem exec_jsr (lo hi : Byte) (s : State) :
    ∃ u, Pulled 0 [] s u ∧ u.pc = s.pc + 2 ∧ u.cycles = cycleCount (.jsrAbs lo hi) s ∧
      exec (.jsrAbs lo hi) s =
        .next ((u.pushPc.busRead u.pushPc.pc).2.goto (word (u.pushPc.busRead u.pushPc.pc).1 lo)) := by
  have before := ((Pulled.beginInstr [] 0x20 6 s).fetched lo).dummyRead ((s.beginInstr 0x20 6).fetched lo).stackAddr
  exact ⟨_, before, by simp [BitVec.add_assoc], State.dummyRead_cycles _ _, exec_of_official s rfl⟩

/-- Settles O38: the two pushes store PC, which stands at the operand's high byte, and the last access reads that byte. -/
theorem jsrPushesReturnAddress : Obligations.JsrPushesReturnAddress := by
  intro lo hi s
  obtain ⟨u, before, pc, cycles, run⟩ := exec_jsr lo hi s
  have sp : u.sp = s.sp := before.keeps.regs .sp (by decide)
  obtain ⟨memory, high, low⟩ := pushPc_stores u
  obtain ⟨last, answered⟩ := logRead_lastRead u.pushPc.pc u.pushPc
  simp only [sp, pc, State.pushPc_pc, State.pushPc_isDevice, before.isDevice] at memory high low last answered
  have platform := (before.platform.pushPc.logRead (s.pc + 2) (u.pushPc.peek (s.pc + 2))).goto
    (word (u.pushPc.peek (s.pc + 2)) lo)
  simp only [State.pushPc_pc, pc, State.busRead_fst, State.busRead_snd] at run
  refine ⟨_, run, platform.keeps fun r hr => (pushPc_reg hr u).trans (before.regs r hr), before.keepsMemory_of memory,
    ?cycles, ?sp, before.stores_of high, before.stores_of low, _, rfl, last, answered⟩
  case cycles => simpa using cycles
  case sp => simp [sp, sub_sub_two]

/-- RTS on the state past its opcode and dummy read: PC is the word pulled, plus one (R212). -/
theorem effRts_pc (s : State) :
    (effRts s).pc = word (s.dummyRead s.stackAddr).pull.2.pull.1 (s.dummyRead s.stackAddr).pull.1 + 1 := rfl

theorem effRts_cycles (s : State) : (effRts s).cycles = s.cycles := by simp [effRts]

/-- Settles O39: two pulls, which memory answers, between dummy reads. -/
theorem rtsReturnsPastPulledAddress : Obligations.RtsReturnsPastPulledAddress := by
  intro s
  obtain ⟨tr, d, he⟩ := exec_implied (i := .rts) (s := s) rfl (wellFormed_of_official _ rfl)
  have start := (Pulled.ran [] .rts tr d s).dummyRead (s.ran .rts tr d).stackAddr
  have past : Pulled 2 [] s (effRts (s.ran .rts tr d)) := (start.pullPc.dummyRead _).goto _
  exact ⟨_, he, past.platform.keeps past.regs, past.keepsMemory, effRts_cycles _, past.sp, _, _, effRts_pc _,
    start.pull_holds, start.pull.pull_holds⟩

theorem effRti_cycles (s : State) : (effRti s).cycles = s.cycles := by simp [effRti, State.leaveHandler]

/-- Settles O40: three pulls, which memory answers, the first unpacked into the flags. -/
theorem rtiRestoresFlagsAndPc : Obligations.RtiRestoresFlagsAndPc := by
  intro s
  obtain ⟨tr, d, he⟩ := exec_implied (i := .rti) (s := s) rfl (wellFormed_of_official _ rfl)
  have start := (Pulled.ran [.n, .v, .d, .i, .z, .c] .rti tr d s).dummyRead (s.ran .rti tr d).stackAddr
  have flags := start.pullP (by intro f; cases f <;> decide)
  have past : Pulled 3 _ s (effRti (s.ran .rti tr d)) := flags.pullPc
  exact ⟨_, he, past.platform.keeps past.regs, past.keepsMemory, effRti_cycles _, past.sp, _, _, _, rfl,
    start.pull_holds, flags.pull_holds, flags.pull.pull_holds, rfl, rfl, rfl, rfl, rfl, rfl⟩

/-! ### BRK (R214) -/

/-- BRK fetches its opcode and reads the padding byte before it enters (R214). -/
theorem exec_brk (pad : Byte) (s : State) :
    ∃ u, Pulled 0 [] s u ∧ u.pc = s.pc + 2 ∧ u.cycles = 7 ∧
      exec (.brk pad) s = .next (u.enterHandler true irqVector) := by
  have before := (Pulled.beginInstr [] 0x00 7 s).dummyRead (s.beginInstr 0x00 7).pc
  exact ⟨_, before.goto ((s.beginInstr 0x00 7).pc + 1), by simp [BitVec.add_assoc], State.dummyRead_cycles _ _,
    exec_of_official s rfl⟩

/-- Settles O41: the entry that the interrupts share, from a state that has the registers and memory of the one before. -/
theorem brkEntersHandler : Obligations.BrkEntersHandler := by
  intro pad s
  obtain ⟨u, before, pc, cycles, run⟩ := exec_brk pad s
  have enters := (enterHandler_enters true (vec := irqVector) (by decide) u).of_keeps before.keeps before.mem
  rw [pc] at enters
  exact ⟨_, run, enters, (State.enterHandler_cycles _ _ u).trans cycles⟩

end Sys2Proof.Machine
end

section
/-! The eight branches (R215 to R223): one shape, and a condition that reads one flag. -/

namespace Sys2Proof.Machine

section

variable {op n : Byte} {base : Nat} {cond : State → Bool} {s : State}

/-- A branch that is not taken falls through. -/
theorem branchInstr_of_not (h : cond ((s.beginInstr op base).fetched n) = false) :
    branchInstr op base cond n s = .next ((s.beginInstr op base).fetched n) := by
  simp [branchInstr, h]

/-- A branch that is taken makes one dummy read, and another in a further cycle where the target is on another page. -/
theorem branchInstr_of_taken (h : cond ((s.beginInstr op base).fetched n) = true) :
    ∃ u, Pulled 0 [] s u ∧
      u.cycles = base + (if hiByte (s.pc + 2 + sext16 n) = hiByte (s.pc + 2) then 1 else 2) ∧
      branchInstr op base cond n s = .next (u.goto (s.pc + 2 + sext16 n)) := by
  have fetches := (Pulled.beginInstr [] op base s).fetched n
  have pc : ((s.beginInstr op base).fetched n).pc = s.pc + 2 := by simp [BitVec.add_assoc]
  have oneRead := fetches.dummyRead (s.pc + 2)
  unfold branchInstr
  dsimp only
  rw [if_pos h, pc]
  by_cases same : hiByte (s.pc + 2 + sext16 n) = hiByte (s.pc + 2)
  · exact ⟨_, oneRead.addCycles 1, by rw [if_pos same]; simp, by rw [if_neg (by rwa [bne_iff_ne, not_not])]⟩
  · exact ⟨_, (oneRead.dummyRead _).addCycles 2, by rw [if_neg same]; simp, by rw [if_pos (bne_iff_ne.mpr same)]⟩

end

/-- The condition of a branch reads one flag (R216 to R223). -/
theorem branch_cond_congr {mn : Mnemonic} {cond : State → Bool} (h : shapeOf mn = .branch cond) {s u : State}
    (hf : u.flag = s.flag) : cond u = cond s := by
  cases mn <;> cases h
  case bcs => exact congrFun hf .c
  case bcc => exact congrArg not (congrFun hf .c)
  case beq => exact congrFun hf .z
  case bne => exact congrArg not (congrFun hf .z)
  case bmi => exact congrFun hf .n
  case bpl => exact congrArg not (congrFun hf .n)
  case bvs => exact congrFun hf .v
  case bvc => exact congrArg not (congrFun hf .v)

/-- A branch goes by its condition as it is before the instruction (R215). -/
theorem branches_of_shape (i : Instr) (s : State) {cond : State → Bool} (hs : shapeOf i.mnemonic = .branch cond)
    (hw : i.row.official = true) : Branches i i.operandBytes.1 (cond s) s := by
  obtain ⟨-, base, -⟩ := branch_cost hs
  have run := exec_of_official s hw
  rw [hs] at run
  have fetches := (Pulled.beginInstr [] i.opcode i.row.cycles s).fetched i.operandBytes.1
  have condition := branch_cond_congr hs (funext fun f => fetches.platform.flags f List.not_mem_nil)
  unfold Branches
  cases taken : cond s <;> rw [taken] at condition
  case false =>
    exact ⟨_, run.trans (branchInstr_of_not condition), fetches.keeps, fetches.keepsMemory, by simp [BitVec.add_assoc],
      base⟩
  case true =>
    obtain ⟨u, reads, cycles, hu⟩ := branchInstr_of_taken condition
    refine ⟨_, run.trans hu, (reads.goto _).keeps, (reads.goto _).keepsMemory, rfl, ?_⟩
    rw [State.goto_cycles, cycles, base, sext16]
    split <;> rfl

/-- Settles O42: each branch has the shape of a branch, with the condition that the statement names. -/
theorem branchesOnCondition : Obligations.BranchesOnCondition := fun n s =>
  ⟨branches_of_shape (.bcc n) s rfl rfl, branches_of_shape (.bcs n) s rfl rfl,
    branches_of_shape (.bne n) s rfl rfl, branches_of_shape (.beq n) s rfl rfl,
    branches_of_shape (.bpl n) s rfl rfl, branches_of_shape (.bmi n) s rfl rfl,
    branches_of_shape (.bvc n) s rfl rfl, branches_of_shape (.bvs n) s rfl rfl⟩

end Sys2Proof.Machine
end

section
/-! Round trips (R211 to R214, R310): a return pulls from a plain stack the bytes that the call or the entry pushed. -/

namespace Sys2Proof.Machine

/-- What memory answers at a plain address is the byte that was stored there. -/
theorem Stores.eq_of_holds {a : Addr} {v w : Byte} {s t : State} (h : Stores a v s t) (hm : s.mem.wf = true)
    (hd : s.isDevice a = false) (ht : t.devices = s.devices) (hw : Holds t a w) : w = v :=
  (hw (by rwa [State.isDevice, ht])).trans (h hd hm)

/-- A transfer and its return keep what both keep, and S and the flags where the return brings them back. -/
theorem Keeps.undo {fs fs' : List Flag} {s t u : State} (h : Keeps [.sp] fs s t) (h' : Keeps [.sp] fs' t u)
    (sp : u.sp = s.sp) (flags : ∀ f, u.flag f = s.flag f) : Keeps [] [] s u := by
  refine ⟨fun r _ => ?_, fun f _ => flags f, h'.nmiPending.trans h.nmiPending, h'.halted.trans h.halted,
    h'.irqLine.trans h.irqLine, h'.devices.trans h.devices, h'.params.trans h.params⟩
  cases r with
  | sp => exact sp
  | a | x | y => exact (h'.regs _ (by decide)).trans (h.regs _ (by decide))

/-- Settles O43: JSR stores the address of its last byte where RTS finds it, and RTS adds one. -/
theorem rtsUndoesJsr : Obligations.RtsUndoesJsr := by
  intro lo hi s t canonical plain₀ plain₁ he
  obtain ⟨t', ht', call, -, -, sp, high, low, -⟩ := jsrPushesReturnAddress lo hi s
  obtain rfl := next_eq ht' he
  obtain ⟨u, hu, ret, -, -, sp', retLo, retHi, pc, hlo, hhi⟩ := rtsReturnsPastPulledAddress t'
  have sp_low : t'.sp + 1 = s.sp - 1 := by rw [sp]; bv_omega
  have sp_high : t'.sp + 2 = s.sp := by rw [sp]; bv_omega
  rw [sp_low] at hlo
  rw [sp_high] at hhi sp'
  obtain rfl := low.eq_of_holds canonical plain₁ call.devices hlo
  obtain rfl := high.eq_of_holds canonical plain₀ call.devices hhi
  refine ⟨u, hu, ?pc, call.undo ret sp' fun f => (ret.flags f List.not_mem_nil).trans (call.flags f List.not_mem_nil)⟩
  case pc =>
    rw [pc, word_hiByte_loByte, BitVec.add_assoc]
    rfl

/-- Pulling what was packed gives the flags it was packed of (R28). -/
theorem flag_of_packP {b : Bool} {s u : State}
    (h : u.flagN = (s.packP b).getLsbD 7 ∧ u.flagV = (s.packP b).getLsbD 6 ∧ u.flagD = (s.packP b).getLsbD 3 ∧
      u.flagI = (s.packP b).getLsbD 2 ∧ u.flagZ = (s.packP b).getLsbD 1 ∧ u.flagC = (s.packP b).getLsbD 0) (f : Flag) :
    u.flag f = s.flag f := by
  obtain ⟨h7, h6, -, -, h3, h2, h1, h0⟩ := packP_bits b s
  obtain ⟨hn, hv, hd, hi, hz, hc⟩ := h
  cases f with
  | n => exact hn.trans h7
  | v => exact hv.trans h6
  | d => exact hd.trans h3
  | i => exact hi.trans h2
  | z => exact hz.trans h1
  | c => exact hc.trans h0

/-- An RTI right after an entry, by an interrupt or by BRK, on a plain stack goes on at the address the entry stored
(R310). -/
theorem rti_undoes_entry {b : Bool} {vec ret : Addr} {s t : State} (enters : Enters b vec ret s t)
    (canonical : s.mem.wf = true) (plain₀ : s.isDevice (word 0x01 s.sp) = false)
    (plain₁ : s.isDevice (word 0x01 (s.sp - 1)) = false) (plain₂ : s.isDevice (word 0x01 (s.sp - 2)) = false) :
    ∃ u, exec .rti t = .next u ∧ u.pc = ret ∧ Keeps [] [] s u := by
  obtain ⟨u, hu, keeps, -, -, sp, p, lo, hi, pc, hp, hlo, hhi, flags⟩ := rtiRestoresFlagsAndPc t
  have sp₁ : t.sp + 1 = s.sp - 2 := by rw [enters.sp]; bv_omega
  have sp₂ : t.sp + 2 = s.sp - 1 := by rw [enters.sp]; bv_omega
  have sp₃ : t.sp + 3 = s.sp := by rw [enters.sp]; bv_omega
  rw [sp₁] at hp
  rw [sp₂] at hlo
  rw [sp₃] at hhi sp
  obtain rfl := enters.status.eq_of_holds canonical plain₂ enters.keeps.devices hp
  obtain rfl := enters.pcLow.eq_of_holds canonical plain₁ enters.keeps.devices hlo
  obtain rfl := enters.pcHigh.eq_of_holds canonical plain₀ enters.keeps.devices hhi
  exact ⟨u, hu, pc.trans (word_hiByte_loByte ret), enters.keeps.undo keeps sp (flag_of_packP flags)⟩

/-- Settles O57: BRK enters with the address two past its opcode. -/
theorem rtiUndoesBrk : Obligations.RtiUndoesBrk := by
  intro pad s t canonical plain₀ plain₁ plain₂ he
  obtain ⟨t', ht', enters, -⟩ := brkEntersHandler pad s
  obtain rfl := next_eq ht' he
  exact rti_undoes_entry enters canonical plain₀ plain₁ plain₂

end Sys2Proof.Machine
end

section
/-! Flag instructions and NOP (R240 to R247): each is an implied instruction whose effect writes at most one flag. -/

namespace Sys2Proof.Machine

/-- Whatever the flags become, the registers stay. -/
theorem withFlags_reg (s : State) (n v d i z c : Bool) (r : Reg) :
    { s with flagN := n, flagV := v, flagD := d, flagI := i, flagZ := z, flagC := c }.reg r = s.reg r := by
  cases r <;> rfl

/-- Settles O44: each effect updates flags only, with the flag's value written out in it; that of NOP is none. -/
theorem flagInstructionsWriteOneFlag : Obligations.FlagInstructionsWriteOneFlag := by
  refine fun s => ⟨?clc, ?cld, ?cli, ?clv, ?sec, ?sed, ?sei, ?nop⟩
  case clc | cld | cli | clv | sec | sed | sei =>
    exact implied_completesInLine rfl rfl rfl (wellFormed_of_official _ rfl)
      (fun u r _ => withFlags_reg u _ _ _ _ _ _ r) fun _ _ => rfl
  case nop =>
    exact implied_completesInLine rfl rfl rfl (wellFormed_of_official _ rfl) (fun _ _ _ => rfl) fun _ _ => trivial

end Sys2Proof.Machine
end

section
/-! What a step is, by the order of R302: one lemma for each of the four kinds, and what the service of an interrupt is,
said once for NMI and IRQ (R303 to R305). -/

namespace Sys2Proof.Machine

section

variable {s : State}

/-- A step of a running core with an NMI pending is its service (R303). -/
theorem step_of_nmiPending (hh : s.halted = false) (hn : s.nmiPending = true) : step s = .next s.nmiService := by
  simp [step, hh, hn]

/-- With none pending and the IRQ unmasked it is that of the IRQ (R304). -/
theorem step_of_unmasked (hh : s.halted = false) (hn : s.nmiPending = false) (hline : s.irqLine = true)
    (hmask : s.flagI = false) : step s = .next s.irqService := by
  simp [step, hh, hn, hline, hmask]

/-- Otherwise it is the instruction at PC, whose bytes decode whatever they are (R87). -/
theorem step_of_uninterrupted (hh : s.halted = false) (hn : s.nmiPending = false)
    (masked : s.irqLine = false ∨ s.flagI = true) :
    ∃ i rest, decode s.fetchWindow = .ok (i, rest) ∧ step s = exec i s := by
  obtain ⟨i, rest, hd⟩ : ∃ i rest, decode s.fetchWindow = .ok (i, rest) := decode_three _ _ _ _
  exact ⟨i, rest, hd, stepRunsDecodedInstruction s i rest hh hn masked hd⟩

/-- Settles O6: the four kinds of step. -/
theorem stepChecksInOrder : Obligations.StepChecksInOrder := fun _ =>
  ⟨step_of_halted, step_of_nmiPending, step_of_unmasked, step_of_uninterrupted⟩

/-- Settles O58: the step of a halted core with the latch set, too, is the halted cycle. -/
theorem haltLastsUntilReset : Obligations.HaltLastsUntilReset := fun s hh =>
  ⟨step_of_halted hh, rfl, step_of_halted (s := s.nmiEdge) hh, State.resetSequence_halted _,
    State.resetSequence_nmiPending _⟩

end

/-! ### Interrupt service (R305) -/

theorem Pulled.beginStep (fs : List Flag) (n : Nat) (s : State) : Pulled 0 fs s (s.beginStep n) :=
  ⟨(KeepsPlatform.refl fs s).quiet rfl rfl rfl rfl rfl rfl, fun r _ => by cases r <;> rfl,
    (BitVec.add_zero s.sp).symm, rfl⟩

/-- The service makes two dummy reads before the entry that it shares with BRK; PC is the return address. -/
theorem interruptService_enters {vec : Addr} (hv : 0x200 ≤ vec.toNat ∧ vec.toNat < 0xFFFF) (s : State) :
    Enters false vec s.pc s (s.interruptService vec) := by
  have before := ((Pulled.beginStep [] 7 s).dummyRead s.pc).dummyRead s.pc
  have enters := (enterHandler_enters false hv _).of_keeps before.keeps before.mem
  simpa [State.interruptService] using enters

/-- Settles O52: the service is entered from the state with the latch clear. -/
theorem nmiIsAlwaysServiced : Obligations.NmiIsAlwaysServiced := fun s hh hn =>
  ⟨_, step_of_nmiPending hh hn, interruptService_enters (by decide) { s with nmiPending := false },
    State.interruptService_cycles _ _⟩

/-- Settles O53: the same service, through the IRQ vector. -/
theorem irqIsServicedWhenUnmasked : Obligations.IrqIsServicedWhenUnmasked := fun s hh hn hline hmask =>
  ⟨_, step_of_unmasked hh hn hline hmask, interruptService_enters (by decide) s, State.interruptService_cycles _ _⟩

/-- Settles O56: the service stores PC and the status byte where RTI finds them. -/
theorem rtiUndoesInterruptService : Obligations.RtiUndoesInterruptService := by
  intro vec s hvec
  have above : 0x200 ≤ vec.toNat ∧ vec.toNat < 0xFFFF := by obtain rfl | rfl := hvec <;> decide
  exact rti_undoes_entry (interruptService_enters above s)

/-- Settles O54: the NMI service clears the latch and sets I, so that the IRQ is masked at the next step. -/
theorem nmiGoesBeforeIrq : Obligations.NmiGoesBeforeIrq := by
  intro s t hh hn hline h
  obtain rfl := next_eq (step_of_nmiPending hh hn) h
  have halted : s.nmiService.halted = false := by simpa [State.nmiService] using hh
  have pending : s.nmiService.nmiPending = false := by simp [State.nmiService]
  have masked : s.nmiService.flagI = true := by simp [State.nmiService]
  exact ⟨pending, by simpa [State.nmiService] using hline, step_of_uninterrupted halted pending (.inr masked)⟩

/-! ### Changes of the mask (R354) -/

/-- An SEI sets I (R246). -/
theorem flagI_of_sei {i : Instr} {s t : State} (hm : i.mnemonic = .sei) (h : exec i s = .next t) : t.flagI = true := by
  obtain ⟨tr, d, he⟩ := exec_implied (f := effSei) (hm ▸ rfl) (wellFormed_of_next h)
  obtain rfl := next_eq he h
  rfl

/-- Settles O55: none of the four instructions halts the core or changes the latch and the line, so that I decides the
next step. -/
theorem maskChangesActAtOnce : Obligations.MaskChangesActAtOnce := by
  intro i s t hh hn hline h
  have keeps := (exec_frame h).keeps
  have running (hm : i.mnemonic ≠ .jam) : t.halted = false := by
    rw [keeps.halted, hh, Bool.false_or, beq_false_of_ne hm]
  have pending : t.nmiPending = false := keeps.nmiPending.trans hn
  refine ⟨fun hm unmasked => ?_, fun hm => ?_⟩
  · have noJam : i.mnemonic ≠ .jam := fun hj => absurd (hj ▸ hm) (by decide)
    exact step_of_unmasked (running noJam) pending (keeps.irqLine.trans hline) unmasked
  · exact step_of_uninterrupted (running (by simp [hm])) pending (.inr (flagI_of_sei hm h))

end Sys2Proof.Machine
end

section
/-! Reset (R340, R341). -/

namespace Sys2Proof.Machine

/-- Settles O20: the reset state is what a reset makes of the state at power-on, whose memory is empty. -/
theorem resetMeetsInvariant : Obligations.ResetMeetsInvariant :=
  Inv.of_tally reset_wf (resetSequence_tally State.powerOn) (by decide) (by decide) (by decide)

/-- A jump through a vector reads its two bytes, low byte first, which memory answers. -/
theorem jumpVector_reads (vec : Addr) (s : State) : ∃ lo hi, (s.jumpVector vec).pc = word hi lo ∧
    (s.jumpVector vec).trace = s.trace ++ [⟨.read, vec, lo⟩, ⟨.read, vec + 1, hi⟩] ∧
    Holds s vec lo ∧ Holds s (vec + 1) hi := by
  refine ⟨s.peek vec, (s.logRead vec (s.peek vec)).peek (vec + 1), rfl, ?_, State.peek_plain, fun plain => ?_⟩
  · simp [State.jumpVector]
  · exact State.peek_plain (by simpa using plain)

/-- Settles O59: the fields that a reset writes are in its definition, the vector gives PC, and I masks the IRQ at the
step after it. -/
theorem resetSequenceEffect : Obligations.ResetSequenceEffect := by
  intro s
  obtain ⟨lo, hi, pc, trace, low, high⟩ := jumpVector_reads resetVector
    { s with halted := false, nmiPending := false, sp := 0xFD, flagI := true, trace := [], cycles := 7 }
  have keeps : Keeps [.sp] [.i] { s with halted := false, nmiPending := false } s.resetSequence := by
    refine ⟨fun r hr => ?_, fun f hf => ?_, by simp, by simp, by simp, by simp, by simp⟩
    · cases r with
      | sp => exact absurd List.mem_cons_self hr
      | a | x | y => simp [State.reg]
    · cases f with
      | i => exact absurd List.mem_cons_self hf
      | c | z | d | v | n => simp [State.flag]
  exact ⟨by simp, by simp, by simp, by simp, by simp, keeps, fun a _ => by simp, lo, hi, pc, trace, low, high,
    step_of_uninterrupted (by simp) (by simp) (.inr (by simp))⟩

end Sys2Proof.Machine
end

section
/-! JAM and the unofficial no-operations (R261, R282). -/

namespace Sys2Proof.Machine

/-- Settles O51: the shape of JAM is its opcode fetch and `halted`. -/
theorem jamHalts : Obligations.JamHalts := by
  intro i s hm hadmitted
  have hs : shapeOf i.mnemonic = .jam := by rw [hm]; rfl
  have run : exec i s = jamInstr i.opcode s := by
    rw [exec_eq_shape, gate_wellFormed (wellFormed_of_admits hadmitted), hs]
    rfl
  exact ⟨_, run, rfl, ⟨fun r _ => by cases r <;> rfl, fun f _ => by cases f <;> rfl, rfl, rfl, rfl, rfl, rfl⟩,
    fun _ _ => rfl, rfl, rfl, rfl⟩

/-- Settles O45: a NOP* is a class-read instruction whose effect is none, so its read stays the last access. -/
theorem nopStarOnlyReads : Obligations.NopStarOnlyReads := by
  intro i s hm hadmitted
  have hs : shapeOf i.mnemonic = .read effNopStar := by rw [hm]; rfl
  obtain ⟨tr, d, he, read⟩ := exec_read hs (wellFormed_of_admits hadmitted)
  have effect : Inert [] (s.ran i tr d) (effNopStar (operandValue i s) (s.ran i tr d)) :=
    read_inert (mn := .nopStar) rfl _ _
  exact completesInLine_of_inert he effect (fun r _ => by cases r <;> rfl) fun hp => ⟨_, read hp⟩

end Sys2Proof.Machine
end

section
/-! The combined read-modify-write instructions (R262 to R265, R268, R269): a shift, rotate, decrement or increment
whose result is written back and then goes to A as the operand of a logic operation, an addition or a compare. -/

namespace Sys2Proof.Machine

/-- The shift or rotate of a mnemonic, from the carry before the instruction (R190 to R193). -/
def shiftOf (mn : Mnemonic) (c : Bool) (v : Byte) : Shifted :=
  match mn with
  | .asl => shiftAsl v
  | .lsr => shiftLsr v
  | .rol => shiftRol c v
  | _ => shiftRor c v

/-- It is what `ShiftsTo` describes. -/
theorem shiftOf_of_shiftsTo {mn : Mnemonic} {c c' : Bool} {v r : Byte} (h : ShiftsTo mn c v r c') :
    shiftOf mn c v = (r, c') := by
  obtain ⟨rfl, rfl, rfl⟩ | ⟨rfl, rfl, rfl⟩ | ⟨rfl, rfl, rfl⟩ | ⟨rfl, rfl, rfl⟩ := h
  · exact Prod.ext (shiftAsl_eq v) rfl
  · exact Prod.ext (shiftLsr_eq v) rfl
  · exact Prod.ext (shiftRol_eq c v) rfl
  · exact Prod.ext (shiftRor_eq c v) rfl

/-- The effect that SLO, RLA and SRE share (R262 to R264): the shift written out, C its carry, and A combined with its
result. -/
def State.shiftedIntoA (op : Byte → Byte → Byte) (r : Shifted) (s : State) : Byte × State :=
  (r.1, (s.setC r.2).loadA (op s.a r.1))

theorem shiftedIntoA_reg (op : Byte → Byte → Byte) (sh : Shifted) (s : State) {r : Reg} (h : r ∉ [Reg.a]) :
    (s.shiftedIntoA op sh).2.reg r = s.reg r := loadA_reg h _ _

section

variable {i : Instr} {s : State} {mn sh : Mnemonic} {r : Byte} {c' : Bool}

/-- SLO, RLA and SRE, by their shift and their operation. -/
theorem shiftedIntoA_completesInLine {op : Byte → Byte → Byte} (hm : i.mnemonic = mn)
    (hs : shapeOf mn = .rmw fun m u => u.shiftedIntoA op (shiftOf sh u.flagC m)) (hmode : i.row.mode ≠ .acc)
    (hw : i.wellFormed s.params = true) (h : ShiftsTo sh s.flagC (rmwValue i s) r c') :
    CompletesInLine i s [.a] (flagWriters mn) [operandAddr i s] fun t =>
      LastWrite (operandAddr i s) r s t ∧ t.flagC = c' ∧ t.a = op s.a r ∧ HasNZ t.a t := by
  obtain ⟨rfl, rfl⟩ := Prod.mk.inj (shiftOf_of_shiftsTo h)
  exact rmw_completesInLine hm hs hmode hw (fun _ _ _ hr => shiftedIntoA_reg _ _ _ hr) (fun _ _ _ => rfl)
    fun _ _ _ => ⟨rfl, rfl, (hasNZ_setNZ _ _).busWrite _ _⟩

/-- RRA adds the rotated byte and its carry to A (R265). -/
theorem rra_completesInLine (hm : i.mnemonic = .rra) (hw : i.wellFormed s.params = true)
    (h : ShiftsTo .ror s.flagC (rmwValue i s) r c') :
    CompletesInLine i s [.a] [.n, .v, .z, .c] [operandAddr i s] fun t =>
      let sum : Int := s.a.toInt + r.toInt + c'.toNat
      LastWrite (operandAddr i s) r s t ∧
      t.a.toNat + 256 * t.flagC.toNat = s.a.toNat + r.toNat + c'.toNat ∧
      (t.flagV = true ↔ sum < -128 ∨ 127 < sum) ∧ HasNZ t.a t := by
  obtain ⟨rfl, rfl⟩ := Prod.mk.inj (shiftOf_of_shiftsTo h)
  exact rmw_completesInLine hm rfl (mode_ne_acc hm (by decide)) hw (fun _ _ _ hr => addCore_reg hr _ _ _ _)
    (fun _ _ _ => rfl) fun tr d m =>
    ⟨addCore_sum _ _ _ { s.ran i tr d with mem := m }, addCore_overflow _ _ _ { s.ran i tr d with mem := m },
      (hasNZ_addCore _ _ _ _).busWrite _ _⟩

/-- ISC subtracts the incremented byte from A (R269). -/
theorem isc_completesInLine (hm : i.mnemonic = .isc) (hw : i.wellFormed s.params = true) :
    CompletesInLine i s [.a] [.n, .v, .z, .c] [operandAddr i s] fun t =>
      let r := rmwValue i s + 1
      let borrow : Nat := 1 - s.flagC.toNat
      let diff : Int := s.a.toInt - r.toInt - borrow
      LastWrite (operandAddr i s) r s t ∧ t.a = s.a - r - BitVec.ofNat 8 borrow ∧
      (t.flagC = true ↔ r.toNat + borrow ≤ s.a.toNat) ∧
      (t.flagV = true ↔ diff < -128 ∨ 127 < diff) ∧ HasNZ t.a t := by
  refine rmw_completesInLine hm rfl (mode_ne_acc hm (by decide)) hw (fun _ _ _ hr => addCore_reg hr _ _ _ _)
    (fun _ _ _ => rfl) fun tr d m => ?_
  obtain ⟨difference, carry, overflow⟩ :=
    addCore_complement s.a (rmwValue i s + 1) s.flagC { s.ran i tr d with mem := m }
  exact ⟨difference, carry, overflow, (hasNZ_addCore _ _ _ _).busWrite _ _⟩

end

/-- Settles O46: SLO, RLA and SRE differ in the shift and the operation only; RRA and ISC end in `addCore`, DCP in
`compare`. -/
theorem combinedReadModifyWrite : Obligations.CombinedReadModifyWrite := by
  intro i s hadmitted
  have hw := wellFormed_of_admits hadmitted
  refine ⟨fun r c' hm h => ?slo, fun r c' hm h => ?rla, fun r c' hm h => ?sre, fun r c' hm h => ?rra, fun hm => ?dcp,
    fun hm => ?isc⟩
  case slo => exact shiftedIntoA_completesInLine hm rfl (mode_ne_acc hm (by decide)) hw h
  case rla => exact shiftedIntoA_completesInLine hm rfl (mode_ne_acc hm (by decide)) hw h
  case sre => exact shiftedIntoA_completesInLine hm rfl (mode_ne_acc hm (by decide)) hw h
  case rra => exact rra_completesInLine hm hw h
  case dcp =>
    exact rmw_completesInLine hm rfl (mode_ne_acc hm (by decide)) hw (fun _ _ r _ => compare_reg _ _ _ r)
      (fun _ _ _ => rfl) fun tr d m => compare_flags _ _ { s.ran i tr d with mem := m }
  case isc => exact isc_completesInLine hm hw

end Sys2Proof.Machine
end

section
/-! The unofficial loads, SAX, and the immediate combinations (R266, R267, R270 to R276, R281). -/

namespace Sys2Proof.Machine

/-! ### The registers these effects write -/

theorem effLax_reg {r : Reg} (h : r ∉ [Reg.a, Reg.x]) (m : Byte) (s : State) : (effLax m s).reg r = s.reg r := by
  cases r with
  | a | x => simp at h
  | y | sp => rfl

theorem effLas_reg {r : Reg} (h : r ∉ [Reg.a, Reg.x, Reg.sp]) (m : Byte) (s : State) :
    (effLas m s).reg r = s.reg r := by
  cases r with
  | a | x | sp => simp at h
  | y => rfl

/-- LXA is a load of both registers, as LAX is (R276). -/
theorem effLxa_eq (m : Byte) (s : State) : effLxa m s = effLax ((s.a ||| s.params.lxaMagic) &&& m) s := rfl

theorem setC_reg (c : Bool) (s : State) (r : Reg) : (s.setC c).reg r = s.reg r := by cases r <;> rfl

/-- A write to C changes neither N nor Z. -/
theorem HasNZ.setC {v : Byte} {s : State} (h : HasNZ v s) (c : Bool) : HasNZ v (s.setC c) := h

/-- Settles O47: SAX is a store of A and X, LAX and LAS load the registers with `M` and with `M` and S. -/
theorem combinedLoadAndStore : Obligations.CombinedLoadAndStore := by
  intro i s hadmitted
  have hw := wellFormed_of_admits hadmitted
  refine ⟨fun hm => ?sax, fun hm => ?lax, fun hm => ?las⟩
  case sax => exact store_completesInLine (v := valSax) hm rfl hw fun _ _ => rfl
  case lax =>
    exact read_completesInLine hm rfl hw (fun _ _ _ hr => effLax_reg hr _ _) fun _ _ => ⟨rfl, rfl, hasNZ_setNZ _ _⟩
  case las =>
    exact read_completesInLine hm rfl hw (fun _ _ _ hr => effLas_reg hr _ _)
      fun _ _ => ⟨rfl, rfl, rfl, hasNZ_setNZ _ _⟩

/-- Settles O48: ANC, ALR and ARR load A and SBX loads X; the shifts of ALR and ARR are LSR's and ROR's. -/
theorem immediateAluCombinations : Obligations.ImmediateAluCombinations := by
  intro i s hadmitted
  have hw := wellFormed_of_admits hadmitted
  refine ⟨fun hm => ?anc, fun hm => ?alr, fun hm => ?arr, fun hm => ?sbx⟩
  case anc =>
    exact read_completesInLine hm rfl hw (fun _ _ r hr => (setC_reg _ _ r).trans (loadA_reg hr _ _))
      fun _ _ => ⟨rfl, rfl, (hasNZ_setNZ _ _).setC _⟩
  case alr =>
    exact read_completesInLine hm rfl hw (fun _ _ r hr => (loadA_reg hr _ _).trans (setC_reg _ _ r))
      fun _ _ => ⟨shiftLsr_eq _, rfl, hasNZ_setNZ _ _⟩
  case arr =>
    exact read_completesInLine hm rfl hw (fun _ _ _ hr => loadA_reg hr _ _)
      fun _ _ => ⟨shiftRor_eq _ _, rfl, rfl, hasNZ_setNZ _ _⟩
  case sbx =>
    exact read_completesInLine hm rfl hw (fun _ _ r hr => (loadX_reg hr _ _).trans (setC_reg _ _ r))
      fun _ _ => ⟨rfl, decide_eq_true_iff, hasNZ_setNZ _ _⟩

/-- Settles O49: the constants are read from the state's parameters, whatever they are. -/
theorem magicConstantsStayOpen : Obligations.MagicConstantsStayOpen := by
  intro i s hadmitted
  have hw := wellFormed_of_admits hadmitted
  refine ⟨fun hm => ?ane, fun hm => ?lxa⟩
  case ane =>
    exact read_completesInLine hm rfl hw (fun _ _ _ hr => loadA_reg hr _ _) fun _ _ => ⟨rfl, hasNZ_setNZ _ _⟩
  case lxa =>
    exact read_completesInLine hm rfl hw (fun m u _ hr => effLxa_eq m u ▸ effLax_reg hr _ _)
      fun _ _ => ⟨rfl, rfl, hasNZ_setNZ _ _⟩

end Sys2Proof.Machine
end

section
/-! The high-byte AND stores (R277 to R280, R284), and with them what `exec` can answer: a next state, or one of two
refusals (R10, R260). -/

namespace Sys2Proof.Machine

theorem setS_reg {r : Reg} (h : r ∉ [Reg.sp]) (v : Option Byte) (s : State) : (s.setS v).reg r = s.reg r := by
  cases r with
  | sp => exact absurd List.mem_cons_self h
  | a | x | y => rfl

theorem unstable_of_mnemonic_mem {mn : Mnemonic} (h : mn ∈ [.sha, .shx, .shy, .tas]) :
    ∃ newS v, shapeOf mn = .unstable newS v := by
  simp only [List.mem_cons, List.not_mem_nil, or_false] at h
  obtain rfl | rfl | rfl | rfl := h <;> exact ⟨_, _, rfl⟩

/-- TAS alone writes S (R280). -/
theorem newS_of_unstable {mn : Mnemonic} {newS : State → Option Byte} {v : State → Byte}
    (h : shapeOf mn = .unstable newS v) (s : State) : newS s = if mn = .tas then some (s.a &&& s.x) else none := by
  cases mn <;> cases h <;> rfl

/-- What is stored, and what goes to S, is read from registers that the address cycles leave as they were. -/
theorem unstable_ran {mn : Mnemonic} {newS : State → Option Byte} {v : State → Byte} (h : shapeOf mn = .unstable newS v)
    (i : Instr) (tr : List BusEntry) (d : Nat) (s : State) :
    newS (s.ran i tr d) = newS s ∧ v (s.ran i tr d) = v s := by
  cases mn <;> cases h <;> exact ⟨rfl, rfl⟩

section

variable {i : Instr} {s : State} {mn : Mnemonic} {newS : State → Option Byte} {v : State → Byte}

/-- The refusal of a high-byte AND store (R284). -/
theorem exec_unstable_refused (hm : i.mnemonic = mn) (hs : shapeOf mn = .unstable newS v)
    (hw : i.wellFormed s.params = true) (cross : crosses i s = true) (refuse : s.params.shCross = .refuse) :
    exec i s = .refused (.unstableOpcode i.opcode (addressTrace i s) (newS s)) := by
  obtain ⟨d, he⟩ := exec_unstable (hm ▸ hs) hw
  obtain ⟨hnew, -⟩ := unstable_ran hs i (addressTrace i s) d s
  simp only [he, cross, refuse, if_true, hnew]

/-- Its store, wherever that goes (R284). -/
theorem unstable_stored {rs : List Reg} {sp : Option Byte} {a : Addr} {w : Byte} {tr : List BusEntry} {d : Nat}
    (he : exec i s = .next (((s.ran i tr d).setS sp).busWrite a w)) (hr : ∀ r, r ∉ rs → (s.setS sp).reg r = s.reg r) :
    CompletesInLine i s rs [] [a] fun t => t.sp = sp.getD s.sp ∧ LastWrite a w s t := by
  have past := (((KeepsPlatform.refl [] s).ran i tr d).setS sp).busWrite a w
  have regs (r : Reg) : (((s.ran i tr d).setS sp).busWrite a w).reg r = (s.setS sp).reg r := by cases r <;> rfl
  exact ⟨_, he, past.keeps fun r h => (regs r).trans (hr r h), busWrite_keepsMemory a w ((s.ran i tr d).setS sp),
    rfl, rfl, rfl, busWrite_lastWrite a w ((s.ran i tr d).setS sp)⟩

/-- A high-byte AND store with its three cases: the store at the effective address, the store on the page that the value
names, and the refusal (R284). -/
theorem unstable_outcomes {rs : List Reg} (hm : i.mnemonic = mn) (hs : shapeOf mn = .unstable newS v)
    (hw : i.wellFormed s.params = true) (hr : ∀ r, r ∉ rs → (s.setS (newS s)).reg r = s.reg r) :
    let val := v s &&& (hiByte (operandBase i s) + 1)
    let crossed := word val (loByte (operandAddr i s))
    (crosses i s = false → CompletesInLine i s rs [] [operandAddr i s] fun t =>
      t.sp = (newS s).getD s.sp ∧ LastWrite (operandAddr i s) val s t) ∧
    (crosses i s = true → s.params.shCross = .formula → CompletesInLine i s rs [] [crossed] fun t =>
      t.sp = (newS s).getD s.sp ∧ LastWrite crossed val s t) ∧
    (crosses i s = true → s.params.shCross = .refuse →
      exec i s = .refused (.unstableOpcode i.opcode (addressTrace i s) (newS s))) := by
  obtain ⟨d, he⟩ := exec_unstable (hm ▸ hs) hw
  obtain ⟨hnew, hv⟩ := unstable_ran hs i (addressTrace i s) d s
  simp only [hnew, hv] at he
  refine ⟨fun same => ?_, fun cross formula => ?_, exec_unstable_refused hm hs hw⟩
  · exact unstable_stored (by rw [he, same]; rfl) hr
  · exact unstable_stored (by rw [he, cross, formula]; rfl) hr

end

/-- Settles O50: the four differ in the value, and TAS in that it writes S. -/
theorem highByteAndStores : Obligations.HighByteAndStores := by
  intro i s rs sp v hadmitted h
  have hw := wellFormed_of_admits hadmitted
  obtain ⟨hm, rfl, rfl, rfl⟩ | ⟨hm, rfl, rfl, rfl⟩ | ⟨hm, rfl, rfl, rfl⟩ | ⟨hm, rfl, rfl, rfl⟩ := h <;> rw [hm]
  · exact unstable_outcomes (newS := spKept) (v := valSha) hm rfl hw fun _ _ => rfl
  · exact unstable_outcomes (newS := spKept) (v := valShx) hm rfl hw fun _ _ => rfl
  · exact unstable_outcomes (newS := spKept) (v := valShy) hm rfl hw fun _ _ => rfl
  · exact unstable_outcomes (newS := spTas) (v := valTas) hm rfl hw fun _ hr => setS_reg hr _ _

/-! ### What `exec` answers -/

/-- R284's refusal: a high-byte AND store that crosses a page under `P_SH_CROSS = Refuse`. -/
def RefusesCrossing (i : Instr) (s : State) : Prop :=
  i.mnemonic ∈ [.sha, .shx, .shy, .tas] ∧ crosses i s = true ∧ s.params.shCross = .refuse

/-- The three outcomes of an instruction: its two refusals, and a next state (R10, R260, R284). -/
theorem exec_cases (i : Instr) (s : State) :
    (i.wellFormed s.params = false ∧
      exec i s = .refused (.unimplementedOpcode i.opcode (s.fetchedOnly i.opcode))) ∨
    (i.wellFormed s.params = true ∧ RefusesCrossing i s ∧
      exec i s = .refused (.unstableOpcode i.opcode (addressTrace i s)
        (if i.mnemonic = .tas then some (s.a &&& s.x) else none))) ∨
    (i.wellFormed s.params = true ∧ ¬ RefusesCrossing i s ∧ ∃ t, exec i s = .next t) := by
  cases hw : i.wellFormed s.params with
  | false => exact .inl ⟨rfl, by rw [exec_eq_shape, gate_refused hw]⟩
  | true =>
    by_cases hc : RefusesCrossing i s
    · obtain ⟨hm, cross, refuse⟩ := hc
      obtain ⟨newS, v, hs⟩ := unstable_of_mnemonic_mem hm
      rw [← newS_of_unstable hs]
      exact .inr (.inl ⟨rfl, ⟨hm, cross, refuse⟩, exec_unstable_refused rfl hs hw cross refuse⟩)
    · have completes (hm : i.mnemonic ∈ [.sha, .shx, .shy, .tas]) (cross : crosses i s = true) :
          s.params.shCross = .formula := by
        cases hp : s.params.shCross with
        | formula => rfl
        | refuse => exact absurd ⟨hm, cross, hp⟩ hc
      exact .inr (.inr ⟨rfl, hc, wellFormedInstructionsComplete i s hw completes⟩)

/-- Settles O8: of the three outcomes an instruction has one. -/
theorem refusedExactlyWhen : Obligations.RefusedExactlyWhen := by
  intro i s r
  obtain ⟨hw, he⟩ | ⟨hw, hc, he⟩ | ⟨hw, hc, t, he⟩ := exec_cases i s <;> rw [he, hw]
  · constructor
    · rintro ⟨⟩
      exact .inl ⟨rfl, rfl⟩
    · rintro (⟨-, rfl⟩ | ⟨⟨⟩, -⟩)
      rfl
  · obtain ⟨hm, cross, refuse⟩ := hc
    constructor
    · rintro ⟨⟩
      exact .inr ⟨rfl, hm, cross, refuse, rfl⟩
    · rintro (⟨⟨⟩, -⟩ | ⟨-, -, -, -, rfl⟩)
      rfl
  · constructor
    · rintro ⟨⟩
    · rintro (⟨⟨⟩, -⟩ | ⟨-, hm, cross, refuse, -⟩)
      exact absurd ⟨hm, cross, refuse⟩ hc

/-- No instruction faults. -/
theorem exec_ne_fault (i : Instr) (s : State) (f : Fault) : exec i s ≠ .fault f := by
  obtain ⟨-, he⟩ | ⟨-, -, he⟩ | ⟨-, -, t, he⟩ := exec_cases i s <;> rw [he] <;> exact nofun

/-- Settles O7: by the four kinds of step; the bytes at PC always decode, to an instruction that does not fault. -/
theorem noStepFaults : Obligations.NoStepFaults := by
  intro s f
  obtain ⟨halted, nmi, irq, instruction⟩ := stepChecksInOrder s
  cases hh : s.halted with
  | true => rw [halted hh]; exact nofun
  | false =>
    cases hn : s.nmiPending with
    | true => rw [nmi hh hn]; exact nofun
    | false =>
      by_cases masked : s.irqLine = false ∨ s.flagI = true
      · obtain ⟨i, rest, -, he⟩ := instruction hh hn masked
        rw [he]
        exact exec_ne_fault i s f
      · obtain ⟨hline, hmask⟩ : s.irqLine = true ∧ s.flagI = false := by simpa using masked
        rw [irq hh hn hline hmask]
        exact nofun

end Sys2Proof.Machine
end
